-- ==== Sys2Proof/Word.lean ====
section
/-! DEFINITION. The word, number and lane types of the WD-640, under the names the manual uses for them
(00_scope.md, Conventions and Numbers at a glance). -/

namespace Sys2Proof

/-- One byte of a memory line. -/
abbrev Byte := BitVec 8
/-- A management item's value, a counter, a time base value: 32 bits. -/
abbrev Word := BitVec 32
/-- A line address: the 40-bit byte address divided by 64. -/
abbrev LineAddr := BitVec 34
/-- A value of the 32-bit time base (R195). -/
abbrev Time := BitVec 32
/-- The epoch, 0 to 255 (R184). -/
abbrev Epoch := BitVec 8

abbrev InitiatorId := Fin 32
/-- An initiator's label for a request. -/
abbrev ReqTag := Fin 64
abbrev GroupId := Fin 4
abbrev Urgency := Fin 8
abbrev ClassId := Fin 6
abbrev WindowId := Fin 16
abbrev SlotId := Fin 48
abbrev EntryId := Fin 16
abbrev TagId := Fin 24
abbrev FenceId := Fin 8
abbrev RefusalId := Fin 8
/-- One byte position within a line. -/
abbrev Lane := Fin 64

/-- A set of lanes of one line. -/
abbrev LaneMask := Vector Bool 64
/-- One byte for each lane of a line. -/
abbrev LineData := Vector Byte 64

end Sys2Proof
end

