-- ==== Sys2Proof/Syntax.lean ====
section
/-! DEFINITION. The commands of the WD-640: the request record of the request port (R1), the status a
memory completion carries (R126), and one constructor of `Instr` for each row of spec/opcode_table.json.
The table gives the rows no operand fields; the operands are the ones the rows' rules name. -/

namespace Sys2Proof

/-- The request record (R1), each kind with the fields that kind carries: a field that is absent for a kind
takes no part in any check or action. `other` is a presentation whose kind is none of the three; it carries
the kind as presented (R5). The length is a number, since the shape check judges it (R5). -/
inductive Request where
  | read (initiator : InitiatorId) (tag : ReqTag) (address : BitVec 40) (length : Nat) (urgency : Urgency)
  | write (initiator : InitiatorId) (tag : ReqTag) (address : BitVec 40) (length : Nat) (urgency : Urgency)
      (strobes : List Bool) (data : List Byte)
  | fence (initiator : InitiatorId) (tag : ReqTag)
  | other (initiator : InitiatorId) (tag : ReqTag) (kindCode : Nat)
  deriving DecidableEq, Repr

/-- The status of a memory completion (R126). -/
inductive MemStatus where
  | ok | fault
  deriving DecidableEq, Repr

/-- The commands: one constructor for each row of the table, in the table's order. -/
inductive Instr where
  /-- PRESENTATION (R7): a request record is offered on the request port. -/
  | presentation (r : Request)
  /-- DELIVERY (R16): upstream takes the response shown. -/
  | delivery
  /-- GRANT (R119): the Issue Arbiter makes a grant of a QUEUED slot, where its choice is one. -/
  | grant
  /-- DRAIN_GRANT (R96): the Issue Arbiter grants a drain, where its choice is one. -/
  | drainGrant
  /-- COMPLETION (R131): a completion with a tag value, a status and the data signals. -/
  | completion (tag : Nat) (status : MemStatus) (line : LineData)
  /-- HOLD (R141): the HOLD input takes a level. -/
  | hold (level : Bool)
  /-- TIME_BASE_STEP (R195): one step of the time base. -/
  | timeBaseStep
  /-- REFILL_EXPIRY (R107): the refill period is judged. -/
  | refillExpiry
  /-- AGED (R93): a merge entry is judged against the merge hold limit. -/
  | aged (e : EntryId)
  /-- URGENT_EPISODE (R110): a class is judged against its latency limit. -/
  | urgentEpisode (c : ClassId)
  /-- RESPONSE_TIMEOUT (R136): an op is judged against the memory response timeout. -/
  | responseTimeout (t : TagId)
  /-- HARD_RESET (R172): the RESET input is asserted, or power-up. -/
  | hardReset
  /-- RESET_DEASSERT (R173): the RESET input is released. -/
  | resetDeassert
  /-- SHORT_FRAME (R175): MSEL is released before the seventh command byte. -/
  | shortFrame
  /-- UNKNOWN_COMMAND (R176): a complete frame with an unknown command code. -/
  | unknownCommand (code : Byte)
  /-- READ_ITEM (R178). -/
  | readItem (item : BitVec 16)
  /-- WRITE_ITEM (R179). -/
  | writeItem (item : BitVec 16) (value : Word)
  /-- COMMIT (R183). -/
  | commit
  /-- DISCARD_STAGED (R186). -/
  | discardStaged
  /-- DRAIN (R163). -/
  | drain
  /-- RESUME (R166). -/
  | resume
  /-- RESTART (R167). -/
  | restart
  /-- TAKE_FAULT (R158). -/
  | takeFault
  /-- ACK_ALERT (R191): the value names causes in the cause layout. -/
  | ackAlert (value : Word)
  /-- CLEAR_COUNTERS (R192). -/
  | clearCounters
  /-- STATUS (R193): the item number chooses the status word. -/
  | status (item : BitVec 16)
  deriving DecidableEq, Repr

end Sys2Proof
end

