-- ==== Sys2Proof/WellFormed.lean ====
section
/-! DEFINITION. Which commands are well formed as commands: a WRITE carries a strobe and a byte for each of
its `length` bytes (R1), and an unknown command's code is none of the eleven known ones (R176, R194).
This is not the shape check of R5, which is Intake's own and is part of PRESENTATION's meaning. -/

namespace Sys2Proof

/-- The command codes of R194. -/
def knownCodes : List Byte :=
  [0x01, 0x02, 0x10, 0x11, 0x20, 0x21, 0x22, 0x30, 0x31, 0x32, 0x33]

/-- The request record has the field sizes of R1. -/
def Request.wellFormed : Request → Bool
  | .write _ _ _ length _ strobes data => strobes.length == length && data.length == length
  | .read .. => true
  | .fence .. => true
  | .other .. => true

/-- The command is one that its port can carry. -/
def Instr.wellFormed : Instr → Bool
  | .presentation r => r.wellFormed
  | .unknownCommand code => !knownCodes.contains code
  | .delivery | .grant | .drainGrant | .completion .. | .hold _ | .timeBaseStep | .refillExpiry
  | .aged _ | .urgentEpisode _ | .responseTimeout _ | .hardReset | .resetDeassert | .shortFrame
  | .readItem _ | .writeItem .. | .commit | .discardStaged | .drain | .resume | .restart | .takeFault
  | .ackAlert _ | .clearCounters | .status _ => true

end Sys2Proof
end

