-- ==== Sys2Proof/Decode.lean ====
section
/-! DEFINITION. From words to commands. spec/opcode_table.json gives its rows no bits, so `decodeTableWord`
refuses every word. The management commands do have an encoding in the manual, the seven command bytes of a
frame (R174) with the codes of R194; `decodeFrame` and `decodeSelect` read it, total on any bytes and any
bits, and `encodeFrame` writes it. -/

namespace Sys2Proof

/-- The command a word spells by the table's bits: none, since no row of the table gives bits. -/
def decodeTableWord (_nbits _w : Nat) : Option Instr := none

/-- The command of a complete frame, by its code; a field the command does not use is ignored (R176, R194). -/
def decodeCommand (code : Byte) (item : BitVec 16) (value : Word) : Instr :=
  if code = 0x01 then .readItem item
  else if code = 0x02 then .writeItem item value
  else if code = 0x10 then .commit
  else if code = 0x11 then .discardStaged
  else if code = 0x20 then .drain
  else if code = 0x21 then .resume
  else if code = 0x22 then .restart
  else if code = 0x30 then .takeFault
  else if code = 0x31 then .ackAlert value
  else if code = 0x32 then .clearCounters
  else if code = 0x33 then .status item
  else .unknownCommand code

/-- The command of the bytes taken from MDI while MSEL is held: byte 1 is the code, bytes 2 and 3 the item
number and bytes 4 to 7 the value, big-endian (R174). Later bytes are ignored; with fewer than seven the
frame is short (R175). -/
def decodeFrame : List Byte → Instr
  | b1 :: b2 :: b3 :: b4 :: b5 :: b6 :: b7 :: _ =>
      decodeCommand b1 (b2 ++ b3) (b4 ++ b5 ++ b6 ++ b7)
  | _ => .shortFrame

/-- Eight bits as a byte, most significant bit first (R174). -/
def byteOfBits (bits : List Bool) : Byte :=
  bits.foldl (fun acc b => acc * 2 + (if b then 1 else 0)) 0

/-- The complete bytes of a run of bits; a byte left in the middle is discarded (R175). -/
def bytesOfBits : List Bool → List Byte
  | a :: b :: c :: d :: e :: f :: g :: h :: rest => byteOfBits [a, b, c, d, e, f, g, h] :: bytesOfBits rest
  | _ => []

/-- The command of one select: the bits taken from MDI, one at each rising edge of MCLK (R174, R175). -/
def decodeSelect (bits : List Bool) : Instr := decodeFrame (bytesOfBits bits)

/-- The seven command bytes for a code, an item number and a value (R174). -/
def frameBytes (code : Byte) (item : BitVec 16) (value : Word) : List Byte :=
  [code, item.extractLsb' 8 8, item.extractLsb' 0 8,
   value.extractLsb' 24 8, value.extractLsb' 16 8, value.extractLsb' 8 8, value.extractLsb' 0 8]

/-- The frame of a management command, fields it does not use sent as zero; none for a command that is no
complete frame. -/
def encodeFrame : Instr → Option (List Byte)
  | .readItem item => some (frameBytes 0x01 item 0)
  | .writeItem item value => some (frameBytes 0x02 item value)
  | .commit => some (frameBytes 0x10 0 0)
  | .discardStaged => some (frameBytes 0x11 0 0)
  | .drain => some (frameBytes 0x20 0 0)
  | .resume => some (frameBytes 0x21 0 0)
  | .restart => some (frameBytes 0x22 0 0)
  | .takeFault => some (frameBytes 0x30 0 0)
  | .ackAlert value => some (frameBytes 0x31 0 value)
  | .clearCounters => some (frameBytes 0x32 0 0)
  | .status item => some (frameBytes 0x33 item 0)
  | .unknownCommand code => some (frameBytes code 0 0)
  | .presentation _ | .delivery | .grant | .drainGrant | .completion .. | .hold _ | .timeBaseStep
  | .refillExpiry | .aged _ | .urgentEpisode _ | .responseTimeout _ | .hardReset | .resetDeassert
  | .shortFrame => none

end Sys2Proof
end

