-- ==== Sys2Proof/Config.lean ====
section
/-! DEFINITION. The fixed numbers of the WD-640 (00_scope.md, Numbers at a glance). The manual leaves no
value of the part to the implementation, so there is no free value here; the tables a host programs are
state (Machine/State.lean: `ConfigSet`). -/

namespace Sys2Proof.Config

/-- A slot's age stops here (R46). -/
def ageLimit : Nat := 65535
/-- The overflow count of the Deferred Fault List stops here (R157). -/
def overflowLimit : Nat := 65535
/-- Records the Deferred Fault List holds (R155). -/
def faultCapacity : Nat := 8
/-- The least credit balance (R108). -/
def balanceFloor : Int := -64
/-- The charge of a grant that reads a line (R108). -/
def lineCharge : Nat := 64
/-- The greatest sum of the six reservations (R181). -/
def reservationSumLimit : Nat := 40
/-- Distance from a staged item to its active mirror (R194). -/
def mirrorOffset : Nat := 0x4000

end Sys2Proof.Config
end

