-- ==== Sys2Proof/Machine/State.lean ====
section
/-! DEFINITION. The state of the WD-640: the records of its blocks, the state after reset, and the reasons a
step can stop. Plain data throughout. -/

namespace Sys2Proof.Machine

/-! ## Values -/

/-- The part state (R161). -/
inductive PartState where
  | running | draining | quiescent | restarting
  deriving DecidableEq, Repr

/-- The kind of an accepted READ or WRITE. -/
inductive Access where
  | read | write
  deriving DecidableEq, Repr

/-- The kind a response carries: the kind as presented (R14). -/
inductive Kind where
  | read | write | fence
  | other (kindCode : Nat)
  deriving DecidableEq, Repr

/-- The statuses a response can carry (R14). -/
inductive Status where
  | ok | poisoned | fenceFaulted | errShape | errDenied | errTag | errDecode | errMem | errTimeout | errAbort
  deriving DecidableEq, Repr

/-- A window's write mode (R23, R27). -/
inductive WriteMode where
  | merge | post | confirm
  deriving DecidableEq, Repr

/-- A window's forwarding attribute (R23, R28). -/
inductive Forwarding where
  | allowed | strict
  deriving DecidableEq, Repr

/-- A window's fault policy (R23, R29). -/
inductive FaultPolicy where
  | error | poison
  deriving DecidableEq, Repr

/-- The window index of a passing lookup: a number 0 to 15, or DEFAULT (R24). -/
inductive WindowIndex where
  | window (w : WindowId)
  | dflt
  deriving DecidableEq, Repr

/-- The states of a slot (R36). -/
inductive SlotState where
  | free | queued | issued | waitDrain | done
  deriving DecidableEq, Repr

/-- The states of a merge entry (R76). -/
inductive EntryState where
  | free | opened | drainPending | draining
  deriving DecidableEq, Repr

/-- The reasons to drain a merge entry (R75). -/
inductive Reason where
  | full | aged | pressure | fence | confirm | strictRead | drainCmd
  deriving DecidableEq, Repr

/-- How a contributor is marked in a merge entry (R75). -/
inductive Contribution where
  | posted | confirmedOnly
  deriving DecidableEq, Repr

/-- The standing of a fence record (R146). -/
inductive FenceState where
  | free | waiting | completed
  deriving DecidableEq, Repr

/-- How posted data was lost (R155). -/
inductive LossKind where
  | memFault | timeout | discarded
  deriving DecidableEq, Repr

/-! ## Records of the blocks -/

/-- A slot of the Request Store (R36). A FREE slot keeps what its other fields last held. -/
structure Slot where
  state : SlotState
  initiator : InitiatorId
  tag : ReqTag
  kind : Access
  line : LineAddr
  offset : Lane
  length : Nat
  /-- The written lanes of a WRITE; no lane for a READ. -/
  lanes : LaneMask
  data : LineData
  /-- The lanes captured at the grant of an overlay read. -/
  snapshot : Option LaneMask
  cls : ClassId
  /-- Held while the slot is QUEUED (R68). -/
  effCls : Option ClassId
  window : WindowIndex
  mode : WriteMode
  forwarding : Forwarding
  policy : FaultPolicy
  epoch : Epoch
  arrivalTime : Time
  /-- Steps since acceptance, stopping at 65 535 (R46). -/
  age : Nat
  memTag : Option TagId
  abort : Bool
  status : Option Status
  delivered : Bool
  deriving DecidableEq, Repr

/-- A refusal record that is HELD (R13). -/
structure Refused where
  initiator : InitiatorId
  tag : ReqTag
  kind : Kind
  status : Status
  deriving DecidableEq, Repr

/-- A line entry of the Line Order Table (R57). -/
structure LineEntry where
  line : LineAddr
  /-- The QUEUED slots on the line, oldest first. -/
  list : List SlotId
  mergeRef : Option EntryId
  deriving DecidableEq, Repr

/-- A merge entry (R75). `contributors` holds a mark for each contributor; `reasons` is a set, kept in the
order of `Reason`'s constructors; `waiting` is in merge order. -/
structure MergeEntry where
  state : EntryState
  line : LineAddr
  data : LineData
  valid : LaneMask
  contributors : Vector (Option Contribution) 32
  window : WindowIndex
  epoch : Epoch
  firstMerge : Time
  reasons : List Reason
  demandTime : Option Time
  waiting : List SlotId
  memTag : Option TagId
  deriving DecidableEq, Repr

/-- The party that waits for an op's outcome (R128). -/
inductive Source where
  | slot (i : SlotId)
  | entry (e : EntryId)
  deriving DecidableEq, Repr

/-- The kind of an op, with the lane mask of a MASKED_WRITE (R127, R128). -/
inductive OpKind where
  | lineRead
  | maskedWrite (lanes : LaneMask)
  deriving DecidableEq, Repr

/-- What an OUTSTANDING record holds (R128). -/
structure OutstandingOp where
  kind : OpKind
  line : LineAddr
  source : Source
  issueTime : Time
  deriving DecidableEq, Repr

/-- A record of the Memory Operation Table (R128): a FREE or QUARANTINED record holds no op. -/
inductive TagRecord where
  | free
  | outstanding (op : OutstandingOp)
  | quarantined
  deriving DecidableEq, Repr

/-- A fence record with its wait set (R146). The three sets of members are in rising order. -/
structure FenceRecord where
  state : FenceState
  initiator : InitiatorId
  tag : ReqTag
  acceptTime : Time
  epoch : Epoch
  waitSlots : List SlotId
  waitFences : List FenceId
  waitEntries : List EntryId
  faulted : Bool
  status : Option Status
  deriving DecidableEq, Repr

/-- A deferred fault record (R155). -/
structure FaultRecord where
  kind : LossKind
  line : LineAddr
  lanes : LaneMask
  /-- Ascending, each once. -/
  contributors : List InitiatorId
  window : WindowIndex
  epoch : Epoch
  time : Time
  deriving DecidableEq, Repr

/-- The fault readout items (R158): the record last taken, none after reset, and the overflow count taken
with it. -/
structure Readout where
  record : Option FaultRecord
  overflow : Nat
  deriving DecidableEq, Repr

/-- A reference of the Response Queue (R15). -/
inductive Ref where
  | slot (i : SlotId)
  | fence (k : FenceId)
  | refusal (k : RefusalId)
  deriving DecidableEq, Repr

/-! ## The configuration set (R180), as the 32-bit values of its items (R177) -/

/-- The attribute items a window and the default window both have. -/
structure WindowAttrs where
  access : Word
  mode : Word
  forwarding : Word
  policy : Word
  classValue : Word
  faultPolicy : Word
  deriving DecidableEq, Repr

structure WindowItems where
  enabled : Word
  baseHi : Word
  baseLo : Word
  limitHi : Word
  limitLo : Word
  attrs : WindowAttrs
  deriving DecidableEq, Repr

structure DefaultItems where
  enabled : Word
  attrs : WindowAttrs
  deriving DecidableEq, Repr

structure ClassItems where
  reservation : Word
  cap : Word
  metered : Word
  ceiling : Word
  refill : Word
  hardCap : Word
  latencyLimit : Word
  deriving DecidableEq, Repr

structure InitiatorItems where
  enabled : Word
  group : Word
  deriving DecidableEq, Repr

/-- One copy of every configuration field (R180). -/
structure ConfigSet where
  initiators : Vector InitiatorItems 32
  classMap : Vector (Vector Word 8) 4
  windows : Vector WindowItems 16
  dfltWindow : DefaultItems
  classes : Vector ClassItems 6
  refillPeriod : Word
  responseTimeout : Word
  holdLimit : Word
  mergeReserve : Word
  alertMask : Word
  deriving DecidableEq, Repr

/-! ## Alerts and statistics -/

/-- The pending flags of the six edge causes (R197). TAGS_EXHAUSTED is a condition of the tags (R198). -/
structure EdgeCauses where
  faultRecorded : Bool
  faultOverflow : Bool
  memTimeout : Bool
  strayCompletion : Bool
  drained : Bool
  restarted : Bool
  deriving DecidableEq, Repr

/-- The counters held once for each class (R200). -/
structure ClassCounters where
  accepted : Word
  bytesCharged : Word
  urgentEpisodes : Word
  promotions : Word
  deferrals : Word
  deriving DecidableEq, Repr

/-- The counters of Alert and Statistics (R200). -/
structure Counters where
  perClass : Vector ClassCounters 6
  deferralsUnclassed : Word
  refusedShape : Word
  refusedDecode : Word
  refusedDenied : Word
  refusedTag : Word
  forwardedReads : Word
  overlayReads : Word
  mergedWrites : Word
  drainsIssued : Word
  timeouts : Word
  lateCompletions : Word
  strayCompletions : Word
  deriving DecidableEq, Repr

/-! ## Outputs -/

/-- Intake's answer to a presentation. -/
inductive Answer where
  | accept | defer
  deriving DecidableEq, Repr

/-- A response record (R14). -/
structure Response where
  initiator : InitiatorId
  tag : ReqTag
  kind : Kind
  status : Status
  data : Option (List Byte)
  deriving DecidableEq, Repr

/-- An op on the memory issue group (R127); the data is absent for a LINE_READ. -/
structure MemOp where
  tag : TagId
  kind : OpKind
  line : LineAddr
  lanes : LaneMask
  data : Option LineData
  deriving DecidableEq, Repr

/-- The status of a management answer (R176). -/
inductive MgmtStatus where
  | done | busy | badItem | badValue | empty | readOnly
  deriving DecidableEq, Repr

/-- A management command's answer (R174). -/
structure MgmtAnswer where
  status : MgmtStatus
  value : Word
  deriving DecidableEq, Repr

/-! ## The state -/

/-- The whole block. Fields marked "model" are not the manual's own state: they hold an output signal's last
value or the commands that wait. -/
structure State where
  /-- The RESET input is asserted (R173). -/
  resetLine : Bool
  /-- The HOLD input is asserted (R141). -/
  holdLine : Bool
  /-- Regulator Control: the part state (R161). -/
  part : PartState
  /-- Intake: the Tag Table, a set of tags for each initiator (R12). -/
  tagTable : Vector (Vector Bool 64) 32
  /-- Intake: the refusal records, none where FREE (R13). -/
  refusals : Vector (Option Refused) 8
  /-- Request Store: the slots (R36). -/
  slots : Vector Slot 48
  /-- Request Store: the arrival list, oldest first (R45). -/
  arrival : List SlotId
  /-- Request Store: the class queues, oldest at the front (R47). -/
  queues : Vector (List SlotId) 6
  /-- Line Order Table: the line entries, one for a line at most (R57). -/
  lines : List LineEntry
  /-- Merge Buffer: the merge entries (R75). -/
  entries : Vector MergeEntry 16
  /-- Issue Arbiter: the credit balances (R104). -/
  balances : Vector Int 6
  /-- Issue Arbiter: steps since the last expiry of the refill period (R104). -/
  refillCount : Nat
  /-- Model: the refill period the last step took. A COMMIT's new period applies from the next step (R106, R122,
  log 6). -/
  periodInForce : Word
  /-- Issue Arbiter: the urgency flags (R110). -/
  urgent : Vector Bool 6
  /-- Issue Arbiter: the round-robin pointer (R118). -/
  pointer : ClassId
  /-- Memory Port: the Memory Operation Table (R128). -/
  tags : Vector TagRecord 24
  /-- Fence Unit: the fence records (R146). -/
  fences : Vector FenceRecord 8
  /-- Fence Unit: the held records in the order in which they were accepted, which R15 and R152 speak of. -/
  fenceOrder : List FenceId
  /-- Deferred Fault List, oldest first (R155). -/
  faults : List FaultRecord
  /-- Deferred Fault List: the overflow count (R157). -/
  overflow : Nat
  /-- The fault readout items (R158). -/
  readout : Readout
  /-- The Response Queue, front first (R15). -/
  responses : List Ref
  /-- Management Port: the staged set (R180). -/
  staged : ConfigSet
  /-- Management Port: the active set (R180). -/
  active : ConfigSet
  /-- Management Port: the active epoch (R184). -/
  epoch : Epoch
  /-- Management Port: the sticky flag SHORT_FRAME (R175). -/
  shortFrame : Bool
  /-- Alert and Statistics: the time base (R195). -/
  timeBase : Time
  /-- Alert and Statistics: the pending flags (R197). -/
  causes : EdgeCauses
  /-- Alert and Statistics: the counters (R200). -/
  counters : Counters
  /-- Model: the last answer on the request answer group. -/
  answer : Option Answer
  /-- Model: the last op placed on the memory issue group. -/
  issued : Option MemOp
  /-- Model: the last response taken by upstream. -/
  taken : Option Response
  /-- Model: the answer of the last complete management frame. -/
  mgmt : Option MgmtAnswer
  /-- Model: the commands that wait, first in, first out. -/
  pending : List Instr
  deriving DecidableEq, Repr

/-- The reasons a command stops the machine with a fault: none. The manual gives every command an effect in
every state, so this type has no constructor. -/
inductive Fault where
  deriving DecidableEq, Repr

/-- The reasons a command has no meaning. -/
inductive Refusal where
  /-- Raised by `exec` for a command that has no meaning yet; safe. No arm raises it: every row is modelled. -/
  | notModelled (mnemonic : String)
  deriving DecidableEq, Repr

/-! ## After reset -/

def noLanes : LaneMask := Vector.replicate 64 false
def zeroLine : LineData := Vector.replicate 64 0

/-- A slot after hard reset: FREE, with no memory tag, no snapshot mask and no result status (R55).
DESIGN CHOICE (log 2): the other fields, which take part in no decision, are zero. -/
def Slot.reset : Slot :=
  { state := .free, initiator := 0, tag := 0, kind := .read, line := 0, offset := 0, length := 0,
    lanes := noLanes, data := zeroLine, snapshot := .none, cls := 0, effCls := .none,
    window := .dflt, mode := .confirm, forwarding := .allowed, policy := .error, epoch := 0,
    arrivalTime := 0, age := 0, memTag := .none, abort := false, status := .none, delivered := false }

/-- A FREE merge entry: no line, reasons, demand time, contributors, waiting confirmations or tag (R76). -/
def MergeEntry.free : MergeEntry :=
  { state := .free, line := 0, data := zeroLine, valid := noLanes,
    contributors := Vector.replicate 32 .none, window := .dflt, epoch := 0, firstMerge := 0, reasons := [],
    demandTime := .none, waiting := [], memTag := .none }

/-- A FREE fence record: no wait set, the faulted flag clear (R154). -/
def FenceRecord.free : FenceRecord :=
  { state := .free, initiator := 0, tag := 0, acceptTime := 0, epoch := 0, waitSlots := [], waitFences := [],
    waitEntries := [], faulted := false, status := .none }

/-- The attributes of every window and the default window after reset (R23, R25, R35). -/
def WindowAttrs.reset : WindowAttrs :=
  { access := 0xFF, mode := 2, forwarding := 0, policy := 0, classValue := 0, faultPolicy := 0 }

/-- Both configuration sets after reset (R35, R50, R102, R124, R144, R194). -/
def ConfigSet.reset : ConfigSet :=
  { initiators := Vector.replicate 32 { enabled := 1, group := 0 }
    classMap := Vector.replicate 4 (Vector.replicate 8 0)
    windows := Vector.replicate 16
      { enabled := 0, baseHi := 0, baseLo := 0, limitHi := 0, limitLo := 0, attrs := WindowAttrs.reset }
    dfltWindow := { enabled := 1, attrs := WindowAttrs.reset }
    classes := Vector.replicate 6
      { reservation := 0, cap := 48, metered := 0, ceiling := 8192, refill := 512, hardCap := 0,
        latencyLimit := 0 }
    refillPeriod := 32, responseTimeout := 4096, holdLimit := 128, mergeReserve := 2, alertMask := 0 }

def EdgeCauses.reset : EdgeCauses :=
  { faultRecorded := false, faultOverflow := false, memTimeout := false, strayCompletion := false,
    drained := false, restarted := false }

/-- Every counter at 0 (R202). -/
def Counters.reset : Counters :=
  { perClass := Vector.replicate 6
      { accepted := 0, bytesCharged := 0, urgentEpisodes := 0, promotions := 0, deferrals := 0 }
    deferralsUnclassed := 0, refusedShape := 0, refusedDecode := 0, refusedDenied := 0, refusedTag := 0,
    forwardedReads := 0, overlayReads := 0, mergedWrites := 0, drainsIssued := 0, timeouts := 0,
    lateCompletions := 0, strayCompletions := 0 }

/-- The part after hard reset (R172), with RESET released (R173). DESIGN CHOICE (log 3): HOLD is deasserted
and no output has been given. -/
def State.reset : State :=
  { resetLine := false, holdLine := false, part := .running
    tagTable := Vector.replicate 32 (Vector.replicate 64 false)
    refusals := Vector.replicate 8 .none
    slots := Vector.replicate 48 Slot.reset, arrival := [], queues := Vector.replicate 6 []
    lines := [], entries := Vector.replicate 16 MergeEntry.free
    balances := Vector.replicate 6 8192, refillCount := 0, periodInForce := 32
    urgent := Vector.replicate 6 false, pointer := 0
    tags := Vector.replicate 24 .free
    fences := Vector.replicate 8 FenceRecord.free, fenceOrder := []
    faults := [], overflow := 0, readout := { record := .none, overflow := 0 }
    responses := []
    staged := ConfigSet.reset, active := ConfigSet.reset, epoch := 0, shortFrame := false
    timeBase := 0, causes := EdgeCauses.reset, counters := Counters.reset
    answer := .none, issued := .none, taken := .none, mgmt := .none, pending := [] }

end Sys2Proof.Machine
end

