-- ==== Sys2Proof/Machine/Tables.lean ====
section
/-! DEFINITION. Fixed tables and small sets: the helpers every block uses. -/

namespace Sys2Proof.Machine

/-- The table with record `i` replaced. -/
def put {n : Nat} {α : Type} (v : Vector α n) (i : Fin n) (x : α) : Vector α n := v.set i.val x i.isLt

/-- The table whose record `i` is `f i`. -/
def tabulate {n : Nat} {α : Type} (f : Fin n → α) : Vector α n := Vector.ofFn f

/-- The lowest-numbered record that satisfies `p`. -/
def firstWhere {n : Nat} (p : Fin n → Bool) : Option (Fin n) := (List.finRange n).find? p

/-- How many records satisfy `p`. -/
def countWhere {n : Nat} (p : Fin n → Bool) : Nat := (List.finRange n).countP p

/-- Whether every record satisfies `p`. -/
def allOf {n : Nat} (p : Fin n → Bool) : Bool := (List.finRange n).all p

/-- Whether some record satisfies `p`. -/
def anyOf {n : Nat} (p : Fin n → Bool) : Bool := (List.finRange n).any p

/-- Apply `f` for each record number in rising order. -/
def forEach {n : Nat} {σ : Type} (s : σ) (f : σ → Fin n → σ) : σ := (List.finRange n).foldl f s

/-- The set `xs` with `x` added, in the order of `univ`. -/
def addTo {α : Type} [BEq α] (univ : List α) (x : α) (xs : List α) : List α :=
  univ.filter (fun y => y == x || xs.contains y)

/-- The list without `x`. -/
def without {α : Type} [BEq α] (x : α) (xs : List α) : List α := xs.filter (fun y => y != x)

/-- The number whose bit `n` is `f n`, for the bits below `width`. -/
def packBits (width : Nat) (f : Nat → Bool) : Nat :=
  match width with
  | 0 => 0
  | k + 1 => packBits k f + (if f k then 2 ^ k else 0)

/-- The age of a stored time base value: the count now minus it, modulo 2^32 (R196). -/
def ageOf (now stored : Time) : Nat := (now - stored).toNat

end Sys2Proof.Machine
end

