-- ==== Sys2Proof/Machine/Operands.lean ====
section
/-! DEFINITION. The operand forms of a request record: line address, offset, requested and written lanes,
data, and the shape check (R1, R5); the lane sets and data areas made from them (R38). -/

namespace Sys2Proof.Machine

/-! ## Lane sets and line data -/

def allLanes : LaneMask := Vector.replicate 64 true

/-- The lanes of either set. -/
def lanesUnion (a b : LaneMask) : LaneMask := tabulate (fun l => a[l] || b[l])

/-- Every lane of `a` is in `b`. -/
def lanesWithin (a b : LaneMask) : Bool := allOf (fun l => !a[l] || b[l])

/-- The set holds at least one lane. -/
def lanesAny (a : LaneMask) : Bool := anyOf (fun l => a[l])

/-- How many lanes the set holds. -/
def lanesCount (a : LaneMask) : Nat := countWhere (fun l => a[l])

/-- The set is all 64 lanes. -/
def lanesFull (a : LaneMask) : Bool := allOf (fun l => a[l])

/-- `top` in the lanes of `m`, `base` elsewhere. -/
def overlay (m : LaneMask) (top base : LineData) : LineData := tabulate (fun l => if m[l] then top[l] else base[l])

/-- `d` in the lanes of `m`, zero elsewhere. -/
def keepLanes (m : LaneMask) (d : LineData) : LineData := overlay m d zeroLine

/-- The lanes offset to offset + length − 1 (R1). -/
def laneRange (offset : Lane) (length : Nat) : LaneMask :=
  tabulate (fun l => offset.val ≤ l.val && l.val < offset.val + length)

/-! ## Request fields -/

/-- The byte address divided by 64 (R1). -/
def lineOf (address : BitVec 40) : LineAddr := BitVec.ofNat 34 (address.toNat / 64)

/-- The byte address modulo 64 (R1). -/
def offsetOf (address : BitVec 40) : Lane := ⟨address.toNat % 64, Nat.mod_lt _ (by decide)⟩

/-- The written lanes of a WRITE: offset + i for each i below the length whose strobe is set (R1). -/
def writtenLanes (offset : Lane) (length : Nat) (strobes : List Bool) : LaneMask :=
  tabulate (fun l => offset.val ≤ l.val && l.val < offset.val + length
    && strobes.getD (l.val - offset.val) false)

/-- A WRITE's data area: byte i in lane offset + i where that lane is written, zero in every other lane (R38). -/
def writtenData (offset : Lane) (length : Nat) (strobes : List Bool) (bytes : List Byte) : LineData :=
  keepLanes (writtenLanes offset length strobes) (tabulate (fun l => bytes.getD (l.val - offset.val) 0))

/-- A READ or WRITE as Intake takes it: its fields, with the line address, offset, lanes and data area. -/
structure AccessReq where
  initiator : InitiatorId
  tag : ReqTag
  kind : Access
  line : LineAddr
  offset : Lane
  length : Nat
  urgency : Urgency
  lanes : LaneMask
  data : LineData
  deriving DecidableEq, Repr

/-- The READ or WRITE a record carries, if it carries one. -/
def accessOf : Request → Option AccessReq
  | .read initiator tag address length urgency =>
      some { initiator, tag, kind := .read, line := lineOf address, offset := offsetOf address, length, urgency,
             lanes := noLanes, data := zeroLine }
  | .write initiator tag address length urgency strobes data =>
      some { initiator, tag, kind := .write, line := lineOf address, offset := offsetOf address, length, urgency,
             lanes := writtenLanes (offsetOf address) length strobes,
             data := writtenData (offsetOf address) length strobes data }
  | .fence .. => none
  | .other .. => none

def initiatorOf : Request → InitiatorId
  | .read i .. | .write i .. | .fence i .. | .other i .. => i

def tagOf : Request → ReqTag
  | .read _ t .. | .write _ t .. | .fence _ t | .other _ t _ => t

/-- The kind as presented (R10, R14). -/
def kindOf : Request → Kind
  | .read .. => .read
  | .write .. => .write
  | .fence .. => .fence
  | .other _ _ k => .other k

/-- The shape check (R5): a READ or WRITE lies within its line and a WRITE sets a strobe; an unknown kind
fails; a FENCE has no shape. -/
def shapeOk : Request → Bool
  | .read _ _ address length _ => 1 ≤ length && (offsetOf address).val + length ≤ 64
  | .write _ _ address length _ strobes _ =>
      1 ≤ length && (offsetOf address).val + length ≤ 64 && (strobes.take length).any id
  | .fence .. => true
  | .other .. => false

end Sys2Proof.Machine
end

