-- ==== Sys2Proof/Machine/Settings.lean ====
section
/-! DEFINITION. What the blocks read from the active set: the tables of chapter 2 and the parameters of the
other chapters, taken from the 32-bit items (R177) with the encodings of R194. -/

namespace Sys2Proof.Machine

/-- A flag item: 1 is set. -/
def flagOf (w : Word) : Bool := w.toNat == 1

/-- An item that holds a class. The active set holds none above 5 (R181). -/
def classOfItem (w : Word) : ClassId := ⟨w.toNat % 6, Nat.mod_lt _ (by decide)⟩

/-- An item that holds a group. The active set holds none above 3 (R181). -/
def groupOfItem (w : Word) : GroupId := ⟨w.toNat % 4, Nat.mod_lt _ (by decide)⟩

def writeModeOf (w : Word) : WriteMode :=
  match w.toNat with
  | 0 => .merge
  | 1 => .post
  | _ => .confirm

def forwardingOf (w : Word) : Forwarding := if w.toNat = 0 then .allowed else .strict

def faultPolicyOf (w : Word) : FaultPolicy := if w.toNat = 0 then .error else .poison

/-- The initiator may have requests accepted (R21). -/
def initiatorEnabled (c : ConfigSet) (i : InitiatorId) : Bool := flagOf c.initiators[i].enabled

/-- The initiator's group (R21). -/
def initiatorGroup (c : ConfigSet) (i : InitiatorId) : GroupId := groupOfItem c.initiators[i].group

/-- A 34-bit line address from its high and low items (R194). -/
def lineFromItems (hi lo : Word) : Nat := hi.toNat % 4 * 2 ^ 32 + lo.toNat

/-- The window covers the line: enabled, and base ≤ line ≤ limit (R23). -/
def windowCovers (w : WindowItems) (a : LineAddr) : Bool :=
  flagOf w.enabled && lineFromItems w.baseHi w.baseLo ≤ a.toNat && a.toNat ≤ lineFromItems w.limitHi w.limitLo

/-- The lookup of R24: the lowest-numbered enabled window that covers the line, else the default window if it
is enabled, else none. -/
def coveringWindow (c : ConfigSet) (a : LineAddr) : Option WindowIndex :=
  match firstWhere (fun w => windowCovers c.windows[w] a) with
  | some w => some (.window w)
  | none => if flagOf c.dfltWindow.enabled then some .dflt else none

/-- The attributes of the window an index names. -/
def windowAttrs (c : ConfigSet) : WindowIndex → WindowAttrs
  | .window w => c.windows[w].attrs
  | .dflt => c.dfltWindow.attrs

/-- The access flag of a group and kind: bit 2g for a READ, bit 2g + 1 for a WRITE (R26, R194). -/
def accessAllowed (a : WindowAttrs) (g : GroupId) : Access → Bool
  | .read => a.access.getLsbD (2 * g.val)
  | .write => a.access.getLsbD (2 * g.val + 1)

/-- The Class Map's value for a group and an urgency (R30). -/
def mappedClass (c : ConfigSet) (g : GroupId) (u : Urgency) : ClassId := classOfItem c.classMap[g][u]

/-- The covering window's class policy applied to the mapped class: MAP, FIXED c or FLOOR c (R31). -/
def policyClass (a : WindowAttrs) (mapped : ClassId) : ClassId :=
  match a.policy.toNat with
  | 0 => mapped
  | 1 => classOfItem a.classValue
  | _ => max mapped (classOfItem a.classValue)

def reservation (c : ConfigSet) (k : ClassId) : Nat := c.classes[k].reservation.toNat
def cap (c : ConfigSet) (k : ClassId) : Nat := c.classes[k].cap.toNat
def metered (c : ConfigSet) (k : ClassId) : Bool := flagOf c.classes[k].metered
def ceiling (c : ConfigSet) (k : ClassId) : Int := c.classes[k].ceiling.toNat
def refill (c : ConfigSet) (k : ClassId) : Int := c.classes[k].refill.toNat
def hardCap (c : ConfigSet) (k : ClassId) : Bool := flagOf c.classes[k].hardCap
def latencyLimit (c : ConfigSet) (k : ClassId) : Nat := c.classes[k].latencyLimit.toNat

end Sys2Proof.Machine
end

