-- ==== Sys2Proof/Machine/Updates.lean ====
section
/-! DEFINITION. The named updates of State: one for each field. Every operation is built from these, and
Laws/State.lean says of each what it leaves. -/

namespace Sys2Proof.Machine

def setResetLine (s : State) (x : Bool) : State := { s with resetLine := x }
def setHoldLine (s : State) (x : Bool) : State := { s with holdLine := x }
def setPart (s : State) (x : PartState) : State := { s with part := x }
def setTagTable (s : State) (x : Vector (Vector Bool 64) 32) : State := { s with tagTable := x }
def setRefusals (s : State) (x : Vector (Option Refused) 8) : State := { s with refusals := x }
def setSlots (s : State) (x : Vector Slot 48) : State := { s with slots := x }
def setArrival (s : State) (x : List SlotId) : State := { s with arrival := x }
def setQueues (s : State) (x : Vector (List SlotId) 6) : State := { s with queues := x }
def setLines (s : State) (x : List LineEntry) : State := { s with lines := x }
def setEntries (s : State) (x : Vector MergeEntry 16) : State := { s with entries := x }
def setBalances (s : State) (x : Vector Int 6) : State := { s with balances := x }
def setRefillCount (s : State) (x : Nat) : State := { s with refillCount := x }
def setPeriodInForce (s : State) (x : Word) : State := { s with periodInForce := x }
def setUrgent (s : State) (x : Vector Bool 6) : State := { s with urgent := x }
def setPointer (s : State) (x : ClassId) : State := { s with pointer := x }
def setTags (s : State) (x : Vector TagRecord 24) : State := { s with tags := x }
def setFences (s : State) (x : Vector FenceRecord 8) : State := { s with fences := x }
def setFenceOrder (s : State) (x : List FenceId) : State := { s with fenceOrder := x }
def setFaults (s : State) (x : List FaultRecord) : State := { s with faults := x }
def setOverflow (s : State) (x : Nat) : State := { s with overflow := x }
def setReadout (s : State) (x : Readout) : State := { s with readout := x }
def setResponses (s : State) (x : List Ref) : State := { s with responses := x }
def setStaged (s : State) (x : ConfigSet) : State := { s with staged := x }
def setActive (s : State) (x : ConfigSet) : State := { s with active := x }
def setEpoch (s : State) (x : Epoch) : State := { s with epoch := x }
def setShortFrame (s : State) (x : Bool) : State := { s with shortFrame := x }
def setTimeBase (s : State) (x : Time) : State := { s with timeBase := x }
def setCauses (s : State) (x : EdgeCauses) : State := { s with causes := x }
def setCounters (s : State) (x : Counters) : State := { s with counters := x }
def setAnswer (s : State) (x : Option Answer) : State := { s with answer := x }
def setIssued (s : State) (x : Option MemOp) : State := { s with issued := x }
def setTaken (s : State) (x : Option Response) : State := { s with taken := x }
def setMgmt (s : State) (x : Option MgmtAnswer) : State := { s with mgmt := x }
def setPending (s : State) (x : List Instr) : State := { s with pending := x }

/-! Updates of one record of a table. -/

def setSlot (s : State) (i : SlotId) (x : Slot) : State := setSlots s (put s.slots i x)
def setEntry (s : State) (e : EntryId) (x : MergeEntry) : State := setEntries s (put s.entries e x)
def setTag (s : State) (t : TagId) (x : TagRecord) : State := setTags s (put s.tags t x)
def setFence (s : State) (k : FenceId) (x : FenceRecord) : State := setFences s (put s.fences k x)

end Sys2Proof.Machine
end

