-- ==== Sys2Proof/Machine/Flags.lean ====
section
/-! DEFINITION. Everything counted, flagged or judged from the state: the counters (R200, R201), the alert
causes and ALERT (R197 to R199), occupancy and the other counts, standings (R105), the urgency condition
(R110) and the empty conditions (R164). -/

namespace Sys2Proof.Machine

/-! ## Counters (R200, R201) -/

/-- A raise of a 32-bit counter, saturating (R201). -/
def satAdd (c : Word) (n : Nat) : Word := BitVec.ofNat 32 (min (c.toNat + n) (2 ^ 32 - 1))

/-- A change of one class's counters. -/
def countClass (s : State) (k : ClassId) (f : ClassCounters → ClassCounters) : State :=
  setCounters s { s.counters with perClass := put s.counters.perClass k (f s.counters.perClass[k]) }

def countAccepted (s : State) (k : ClassId) : State :=
  countClass s k (fun x => { x with accepted := satAdd x.accepted 1 })
def countBytes (s : State) (k : ClassId) (n : Nat) : State :=
  countClass s k (fun x => { x with bytesCharged := satAdd x.bytesCharged n })
def countEpisode (s : State) (k : ClassId) : State :=
  countClass s k (fun x => { x with urgentEpisodes := satAdd x.urgentEpisodes 1 })
def countPromotion (s : State) (k : ClassId) : State :=
  countClass s k (fun x => { x with promotions := satAdd x.promotions 1 })
def countDeferral (s : State) (k : ClassId) : State :=
  countClass s k (fun x => { x with deferrals := satAdd x.deferrals 1 })
def countUnclassed (s : State) : State :=
  setCounters s { s.counters with deferralsUnclassed := satAdd s.counters.deferralsUnclassed 1 }
/-- REFUSALS for the status of the failed check (R10). Intake refuses with these four statuses only. -/
def countRefusal (s : State) (st : Status) : State :=
  setCounters s (match st with
    | .errShape => { s.counters with refusedShape := satAdd s.counters.refusedShape 1 }
    | .errDecode => { s.counters with refusedDecode := satAdd s.counters.refusedDecode 1 }
    | .errDenied => { s.counters with refusedDenied := satAdd s.counters.refusedDenied 1 }
    | .errTag => { s.counters with refusedTag := satAdd s.counters.refusedTag 1 }
    | .ok | .poisoned | .fenceFaulted | .errMem | .errTimeout | .errAbort => s.counters)
def countForward (s : State) : State :=
  setCounters s { s.counters with forwardedReads := satAdd s.counters.forwardedReads 1 }
def countOverlay (s : State) : State :=
  setCounters s { s.counters with overlayReads := satAdd s.counters.overlayReads 1 }
def countMerge (s : State) : State :=
  setCounters s { s.counters with mergedWrites := satAdd s.counters.mergedWrites 1 }
def countDrain (s : State) : State :=
  setCounters s { s.counters with drainsIssued := satAdd s.counters.drainsIssued 1 }
def countTimeout (s : State) : State :=
  setCounters s { s.counters with timeouts := satAdd s.counters.timeouts 1 }
def countLate (s : State) : State :=
  setCounters s { s.counters with lateCompletions := satAdd s.counters.lateCompletions 1 }
def countStray (s : State) : State :=
  setCounters s { s.counters with strayCompletions := satAdd s.counters.strayCompletions 1 }

/-! ## Alert causes (R197 to R199) -/

def raiseFaultRecorded (s : State) : State := setCauses s { s.causes with faultRecorded := true }
def raiseFaultOverflow (s : State) : State := setCauses s { s.causes with faultOverflow := true }
def raiseMemTimeout (s : State) : State := setCauses s { s.causes with memTimeout := true }
def raiseStrayCompletion (s : State) : State := setCauses s { s.causes with strayCompletion := true }
def raiseDrained (s : State) : State := setCauses s { s.causes with drained := true }
def raiseRestarted (s : State) : State := setCauses s { s.causes with restarted := true }

/-- The condition tags exhausted: all 24 records QUARANTINED (R140). -/
def tagsExhausted (s : State) : Bool := allOf (fun t => s.tags[t] == TagRecord.quarantined)

/-- Whether the cause of a bit of the cause layout is pending (R194, R198). -/
def causePending (s : State) : Nat → Bool
  | 0 => s.causes.faultRecorded
  | 1 => s.causes.faultOverflow
  | 2 => s.causes.memTimeout
  | 3 => s.causes.strayCompletion
  | 4 => s.causes.drained
  | 5 => s.causes.restarted
  | 6 => tagsExhausted s
  | _ => false

/-- The pending causes in the cause layout. -/
def pendingCauses (s : State) : Word := BitVec.ofNat 32 (packBits 7 (causePending s))

/-- The ALERT output: an enabled cause is pending, and RESET is not asserted (R199, R173). -/
def alert (s : State) : Bool := !s.resetLine && (pendingCauses s &&& s.active.alertMask) != 0

/-! ## Counts -/

def slotLive (x : Slot) : Bool := x.state != .free

/-- The occupancy of a class (R49). -/
def occupancy (s : State) (k : ClassId) : Nat := countWhere (fun i => slotLive s.slots[i] && s.slots[i].cls == k)

def freeSlots (s : State) : Nat := countWhere (fun i => s.slots[i].state == .free)
def freeEntries (s : State) : Nat := countWhere (fun e => s.entries[e].state == .free)
def freeTags (s : State) : Nat := countWhere (fun t => s.tags[t] == TagRecord.free)
def quarantinedTags (s : State) : Nat := countWhere (fun t => s.tags[t] == TagRecord.quarantined)

/-- The unmet reservations of the classes other than `k` (R51). -/
def unmetOthers (s : State) (k : ClassId) : Nat :=
  (List.finRange 6).foldl (fun t j => if j = k then t else t + (reservation s.active j - occupancy s j)) 0

/-- The acceptance test for a class (R51). -/
def acceptanceTest (s : State) (k : ClassId) : Bool :=
  1 ≤ freeSlots s && occupancy s k < cap s.active k
    && (occupancy s k < reservation s.active k || unmetOthers s k < freeSlots s)

/-! ## Standings and urgency -/

/-- A class's standing (R105). -/
inductive Standing where
  | inBudget | overBudget | held
  deriving DecidableEq, Repr

def standing (s : State) (k : ClassId) : Standing :=
  if metered s.active k = false then .inBudget
  else if 0 < s.balances[k] then .inBudget
  else if hardCap s.active k then .held
  else .overBudget

/-- The condition under which a class's urgency flag is set (R110). -/
def urgentNow (s : State) (k : ClassId) : Bool :=
  match s.queues[k] with
  | [] => false
  | i :: _ => latencyLimit s.active k != 0 && latencyLimit s.active k ≤ s.slots[i].age

/-! ## The empty conditions (R164) -/

def isOutstanding : TagRecord → Bool
  | .outstanding _ => true
  | .free | .quarantined => false

def emptyConditions (s : State) : Bool :=
  allOf (fun i => s.slots[i].state == .free) && allOf (fun k => s.fences[k].state == .free)
    && allOf (fun e => s.entries[e].state == .free) && allOf (fun t => !isOutstanding s.tags[t])
    && s.responses.isEmpty

/-! ## The oldest live epoch (R185) -/

/-- How far an epoch lies behind the active epoch, counting backward modulo 256. -/
def epochsBehind (s : State) (e : Epoch) : Nat := (s.epoch - e).toNat

/-- The epochs of the head of the arrival list and of every held fence record. -/
def liveEpochs (s : State) : List Epoch :=
  (match s.arrival with
    | [] => []
    | i :: _ => [s.slots[i].epoch])
  ++ ((List.finRange 8).filter (fun k => s.fences[k].state != .free)).map (fun k => s.fences[k].epoch)

/-- The candidate farthest behind the active epoch; the active epoch when there is none. -/
def oldestLiveEpoch (s : State) : Epoch :=
  s.epoch - BitVec.ofNat 8 ((liveEpochs s).foldl (fun d e => max d (epochsBehind s e)) 0)

/-! ## Status words (R193, R194) -/

def partCode : PartState → Nat
  | .running => 0 | .draining => 1 | .quiescent => 2 | .restarting => 3

def statusWord0 (s : State) : Word :=
  BitVec.ofNat 32 (partCode s.part + (if s.shortFrame then 4 else 0) + 16 * s.faults.length
    + 256 * s.epoch.toNat + 65536 * (oldestLiveEpoch s).toNat)

def statusWord1 (s : State) : Word :=
  BitVec.ofNat 32 (freeSlots s + 256 * freeEntries s + 65536 * freeTags s + 16777216 * quarantinedTags s)

end Sys2Proof.Machine
end

