-- ==== Sys2Proof/Machine/Ops.lean ====
section
/-! DEFINITION. The shared operations of the blocks: response references, fences and their wait sets, the
Deferred Fault List, slots becoming DONE and FREE, the Line Order Table, drain reasons and PRESSURE, merge
entries becoming FREE, issue of ops, resolution of ops, timeouts, urgency, refills, and the part becoming
empty. Every meaning is built from these. -/

namespace Sys2Proof.Machine

/-! ## The Response Queue (R15) -/

/-- The slot is DONE now and was not before the event. -/
def newlyDone (before after : State) (i : SlotId) : Bool :=
  after.slots[i].state == .done && before.slots[i].state != .done

/-- The fence record is COMPLETED now and was not before the event. -/
def newlyCompleted (before after : State) (k : FenceId) : Bool :=
  after.fences[k].state == .completed && before.fences[k].state != .completed

/-- The references an event makes ready: slots in arrival order, then fences in the order accepted (R15). -/
def readyRefs (before after : State) : List Ref :=
  (after.arrival.filter (newlyDone before after)).map .slot
    ++ (after.fenceOrder.filter (newlyCompleted before after)).map .fence

/-- The references made ready by an event that began in `before` join the Response Queue at the back. -/
def publish (before after : State) : State := setResponses after (after.responses ++ readyRefs before after)

/-! ## Fences and wait sets (R148 to R152) -/

/-- A WAITING record whose wait set is empty completes, with FENCE_FAULTED if it is marked and OK if not (R152). -/
def settleFence (f : FenceRecord) : FenceRecord :=
  if f.waitSlots.isEmpty && f.waitFences.isEmpty && f.waitEntries.isEmpty then
    { f with state := .completed, status := some (if f.faulted then .fenceFaulted else .ok) }
  else f

def dropSlot (i : SlotId) (f : FenceRecord) : FenceRecord :=
  if f.state == .waiting && f.waitSlots.contains i then
    settleFence { f with waitSlots := without i f.waitSlots } else f

def dropFence (k : FenceId) (f : FenceRecord) : FenceRecord :=
  if f.state == .waiting && f.waitFences.contains k then
    settleFence { f with waitFences := without k f.waitFences } else f

def dropEntry (e : EntryId) (f : FenceRecord) : FenceRecord :=
  if f.state == .waiting && f.waitEntries.contains e then
    settleFence { f with waitEntries := without e f.waitEntries } else f

/-- A change of every fence record. -/
def mapFences (s : State) (f : FenceRecord → FenceRecord) : State := setFences s (tabulate (fun k => f s.fences[k]))

/-- A slot leaves every wait set that holds it (R151). -/
def departSlot (s : State) (i : SlotId) : State := mapFences s (dropSlot i)
/-- A delivered fence leaves every wait set that holds it (R151). -/
def departFence (s : State) (k : FenceId) : State := mapFences s (dropFence k)
/-- A merge entry leaves every wait set that holds it (R151). -/
def departEntry (s : State) (e : EntryId) : State := mapFences s (dropEntry e)

/-- A contributor's mark says it merged posted data (R75). -/
def isPosted (c : Option Contribution) : Bool := c == some .posted

/-- Every WAITING fence that holds the entry and whose initiator is a posted contributor is marked faulted (R98). -/
def markEntryFences (s : State) (e : EntryId) : State :=
  mapFences s (fun f =>
    if f.state == .waiting && f.waitEntries.contains e && isPosted s.entries[e].contributors[f.initiator] then
      { f with faulted := true } else f)

/-- Every WAITING fence that holds the slot is marked faulted (R134). -/
def markSlotFences (s : State) (i : SlotId) : State :=
  mapFences s (fun f => if f.state == .waiting && f.waitSlots.contains i then { f with faulted := true } else f)

/-! ## The Deferred Fault List (R155 to R157) -/

/-- A record is handed to the list: it joins, raising FAULT_RECORDED, or is dropped and counted, raising
FAULT_OVERFLOW (R157). -/
def handRecord (s : State) (r : FaultRecord) : State :=
  if s.faults.length < Config.faultCapacity then raiseFaultRecorded (setFaults s (s.faults ++ [r]))
  else raiseFaultOverflow (setOverflow s (min (s.overflow + 1) Config.overflowLimit))

/-- An entry's contributors in ascending order (R155). -/
def contributorList (m : MergeEntry) : List InitiatorId :=
  (List.finRange 32).filter (fun i => m.contributors[i].isSome)

/-- The record of a merge entry's lost data (R98, R156). -/
def entryRecord (m : MergeEntry) (kind : LossKind) (now : Time) : FaultRecord :=
  { kind, line := m.line, lanes := m.valid, contributors := contributorList m, window := m.window,
    epoch := m.epoch, time := now }

/-- The record of a posted direct write's lost data (R134, R156). -/
def slotRecord (x : Slot) (kind : LossKind) (now : Time) : FaultRecord :=
  { kind, line := x.line, lanes := x.lanes, contributors := [x.initiator], window := x.window,
    epoch := x.epoch, time := now }

/-! ## Slots becoming FREE (R42) -/

/-- A slot becomes FREE: it leaves the arrival list, its class's occupancy and every wait set. Its other
fields keep what they last held (R36). -/
def freeSlot (s : State) (i : SlotId) : State :=
  departSlot (setArrival (setSlot s i { s.slots[i] with state := .free }) (without i s.arrival)) i

/-! ## The Line Order Table (R57 to R73) -/

def findLine (s : State) (a : LineAddr) : Option LineEntry := s.lines.find? (fun l => l.line == a)

/-- The line list of a line: empty where the line has no entry. -/
def lineList (s : State) (a : LineAddr) : List SlotId := ((findLine s a).map (·.list)).getD []

/-- The line's merge entry, through the merge reference (R57). -/
def mergeRef (s : State) (a : LineAddr) : Option EntryId := (findLine s a).bind (·.mergeRef)

/-- A change of one line's entry. -/
def updateLine (s : State) (a : LineAddr) (f : LineEntry → LineEntry) : State :=
  setLines s (s.lines.map (fun l => if l.line == a then f l else l))

/-- A slot joins the back of its line's list; the line entry is created where the line has none (R58). -/
def joinLine (s : State) (a : LineAddr) (i : SlotId) : State :=
  match findLine s a with
  | some _ => updateLine s a (fun l => { l with list := l.list ++ [i] })
  | none => setLines s (s.lines ++ [{ line := a, list := [i], mergeRef := none }])

/-- A slot leaves its line's list (R72). -/
def leaveLine (s : State) (a : LineAddr) (i : SlotId) : State :=
  updateLine s a (fun l => { l with list := without i l.list })

def setMergeRef (s : State) (a : LineAddr) (r : Option EntryId) : State :=
  updateLine s a (fun l => { l with mergeRef := r })

/-- A line entry with an empty list and no merge reference is removed (R59). -/
def tidyLine (s : State) (a : LineAddr) : State :=
  setLines s (s.lines.filter (fun l => !(l.line == a && l.list.isEmpty && l.mergeRef.isNone)))

/-- Whether an older slot blocks a younger one on its line: at least one of the two is a WRITE (R67). -/
def blocks (older younger : Access) : Bool := older == .write || younger == .write

/-- The effective classes of a line list, computed from the back towards the front (R68). -/
def effectiveClasses (slots : Vector Slot 48) : List SlotId → List (SlotId × ClassId)
  | [] => []
  | a :: rest =>
      let younger := effectiveClasses slots rest
      (a, younger.foldl (fun m p => if blocks slots[a].kind slots[p.1].kind then max m p.2 else m) slots[a].cls)
        :: younger

/-- The effective class of one slot is set; a rise from the own class to one above it counts in PROMOTIONS (R71). -/
def setEffective (s : State) (p : SlotId × ClassId) : State :=
  let x := s.slots[p.1]
  let t := setSlot s p.1 { x with effCls := some p.2 }
  if x.effCls == some x.cls && x.cls < p.2 then countPromotion t x.cls else t

/-- The effective classes of a line's slots are computed again (R68, R69). -/
def recompute (s : State) (a : LineAddr) : State :=
  (effectiveClasses s.slots (lineList s a)).foldl setEffective s

/-- The line's leading reads: the slots before the first WRITE of its list (R62). -/
def leadingReads (s : State) (a : LineAddr) : List SlotId :=
  (lineList s a).takeWhile (fun i => s.slots[i].kind == .read)

/-! ## Drain reasons (R91 to R95) -/

def entryLive (m : MergeEntry) : Bool := m.state == .opened || m.state == .drainPending

def allReasons : List Reason := [.full, .aged, .pressure, .fence, .confirm, .strictRead, .drainCmd]

/-- FENCE, CONFIRM, STRICT_READ and DRAIN_CMD are the demanded reasons (R75). -/
def demanded : Reason → Bool
  | .fence | .confirm | .strictRead | .drainCmd => true
  | .full | .aged | .pressure => false

/-- A reason is added to an OPEN or DRAIN_PENDING entry; the first demanded one sets the demand time (R91). -/
def withReason (m : MergeEntry) (r : Reason) (now : Time) : MergeEntry :=
  if entryLive m then
    { m with
      state := .drainPending
      reasons := addTo allReasons r m.reasons
      demandTime := if demanded r && m.demandTime.isNone then some now else m.demandTime }
  else m

def addReason (s : State) (e : EntryId) (r : Reason) : State :=
  setEntry s e (withReason s.entries[e] r s.timeBase)

/-- A leading STRICT READ of the line adds STRICT_READ to the line's entry, where that is OPEN or
DRAIN_PENDING (R64). -/
def judgeStrict (s : State) (a : LineAddr) : State :=
  match mergeRef s a with
  | some e => if (leadingReads s a).any (fun i => s.slots[i].forwarding == .strict) then
      addReason s e .strictRead else s
  | none => s

/-- Of the entries that satisfy `p`, the one with the greatest key; the lowest-numbered of equals (R114). -/
def oldestEntry (p : EntryId → Bool) (key : EntryId → Nat) : Option EntryId :=
  (List.finRange 16).foldl (fun best e =>
    if p e then
      match best with
      | some b => if key b < key e then some e else some b
      | none => some e
    else best) none

/-- The PRESSURE condition (R94). -/
def pressureCondition (s : State) : Bool :=
  freeEntries s ≤ s.active.mergeReserve.toNat
    && allOf (fun e => s.entries[e].state == .free || !s.entries[e].reasons.contains .pressure)

/-- PRESSURE is judged: while its condition holds, the oldest OPEN entry takes it (R94). -/
def judgePressure (s : State) : State :=
  if pressureCondition s then
    match oldestEntry (fun e => s.entries[e].state == .opened) (fun e => ageOf s.timeBase s.entries[e].firstMerge) with
    | some e => addReason s e .pressure
    | none => s
  else s

/-- An entry is at or beyond the merge hold limit (R93). -/
def entryAged (s : State) (e : EntryId) : Bool :=
  s.active.holdLimit.toNat ≤ ageOf s.timeBase s.entries[e].firstMerge

/-- AGED is judged for one entry (R93). -/
def judgeAged (s : State) (e : EntryId) : State := if entryAged s e then addReason s e .aged else s

/-- AGED is judged for every entry. -/
def judgeAllAged (s : State) : State := forEach s judgeAged

/-! ## Merge entries becoming FREE (R76, R97) -/

/-- An entry becomes FREE and leaves every wait set; its line entry loses the merge reference and is removed
if its list is empty; PRESSURE is judged again (R97). -/
def freeEntry (s : State) (e : EntryId) : State :=
  let a := s.entries[e].line
  judgePressure (tidyLine (setMergeRef (departEntry (setEntry s e MergeEntry.free) e) a none) a)

/-! ## Issue of ops (R127, R130) -/

def firstFreeTag (s : State) : Option TagId := firstWhere (fun t => s.tags[t] == TagRecord.free)

/-- An op can be issued: a memory tag is FREE and HOLD is deasserted (R113). -/
def canIssue (s : State) : Bool := (firstFreeTag s).isSome && !s.holdLine

/-- The lanes an op names on the issue group: all 64 for a LINE_READ (R127). -/
def opLanes : OpKind → LaneMask
  | .lineRead => allLanes
  | .maskedWrite m => m

/-- The data of an op on the issue group: absent for a LINE_READ, zero outside the mask (R127). -/
def opData (k : OpKind) (d : LineData) : Option LineData :=
  match k with
  | .lineRead => none
  | .maskedWrite m => some (keepLanes m d)

/-- An op is recorded under a tag and placed on the memory issue group (R130). -/
def placeOp (s : State) (t : TagId) (k : OpKind) (a : LineAddr) (d : LineData) (src : Source) : State :=
  setIssued (setTag s t (.outstanding { kind := k, line := a, source := src, issueTime := s.timeBase }))
    (some { tag := t, kind := k, line := a, lanes := opLanes k, data := opData k d })

/-- A slot's op is issued under the lowest-numbered FREE tag, which the slot takes (R129, R130). -/
def issueForSlot (s : State) (i : SlotId) (k : OpKind) : State :=
  match firstFreeTag s with
  | some t => setSlot (placeOp s t k s.slots[i].line s.slots[i].data (.slot i)) i { s.slots[i] with memTag := some t }
  | none => s

/-- A drain's MASKED_WRITE is issued under the lowest-numbered FREE tag, which the entry takes (R96, R130). -/
def issueForEntry (s : State) (e : EntryId) : State :=
  match firstFreeTag s with
  | some t =>
      setEntry (placeOp s t (.maskedWrite s.entries[e].valid) s.entries[e].line s.entries[e].data (.entry e)) e
        { s.entries[e] with memTag := some t }
  | none => s

/-! ## Resolution of ops (R131 to R136) -/

/-- How an op ends: completion OK with the line's bytes, completion FAULT, or timeout. -/
inductive OpOutcome where
  | ok (line : LineData)
  | fault
  | timeout
  deriving DecidableEq, Repr

/-- The status of a confirmed write or a waiting confirmation (R40, R41). -/
def writeStatus : OpOutcome → Status
  | .ok _ => .ok
  | .fault => .errMem
  | .timeout => .errTimeout

/-- The kind of loss a failed op of posted data makes (R156). -/
def lossOf : OpOutcome → Option LossKind
  | .ok _ => none
  | .fault => some .memFault
  | .timeout => some .timeout

/-- The snapshot bytes in the lanes of the snapshot mask, `base` elsewhere (R38). -/
def underSnapshot (x : Slot) (base : LineData) : LineData :=
  match x.snapshot with
  | some m => overlay m x.data base
  | none => base

/-- The result status and data area of an ISSUED slot at resolution, the first row of R40 that applies. -/
def issuedResult (x : Slot) (o : OpOutcome) : Status × LineData :=
  if x.abort then (.errAbort, x.data)
  else match x.kind with
    | .read =>
        match o with
        | .ok line => (.ok, underSnapshot x line)
        | .fault =>
            match x.policy with
            | .error => (.errMem, x.data)
            | .poison => (.poisoned, underSnapshot x zeroLine)
        | .timeout => (.errTimeout, x.data)
    | .write => (writeStatus o, x.data)

/-- An ISSUED slot becomes DONE at its op's resolution and gives up its memory tag (R40). -/
def resolveIssued (s : State) (i : SlotId) (o : OpOutcome) : State :=
  setSlot s i { s.slots[i] with
    state := .done
    status := some (issuedResult s.slots[i] o).1
    data := (issuedResult s.slots[i] o).2
    memTag := none }

/-- A slot's memory tag is removed; a slot whose response has been delivered becomes FREE (R42). -/
def releaseTag (s : State) (i : SlotId) : State :=
  let t := setSlot s i { s.slots[i] with memTag := none }
  if s.slots[i].delivered then freeSlot t i else t

/-- The loss of a posted direct write: a record is handed and the fences that hold the slot are marked (R134). -/
def recordSlotLoss (s : State) (i : SlotId) (o : OpOutcome) : State :=
  match lossOf o with
  | some k => markSlotFences (handRecord s (slotRecord s.slots[i] k s.timeBase)) i
  | none => s

/-- A slot's op is resolved: an ISSUED slot takes the outcome (R40); a posted direct write, DONE with OK,
keeps its status, and its loss is recorded before its tag is removed (R134, R136). -/
def resolveSlot (s : State) (i : SlotId) (o : OpOutcome) : State :=
  if s.slots[i].state == .done then releaseTag (recordSlotLoss s i o) i else resolveIssued s i o

/-- A waiting confirmation becomes DONE with the drain's outcome (R41). -/
def finishWaiting (st : Status) (s : State) (i : SlotId) : State :=
  setSlot s i { s.slots[i] with state := .done, status := some st }

/-- Every waiting confirmation of an entry becomes DONE, and the list is emptied (R97 step 1). -/
def answerWaiting (s : State) (e : EntryId) (st : Status) : State :=
  let t := s.entries[e].waiting.foldl (finishWaiting st) s
  setEntry t e { t.entries[e] with waiting := [] }

/-- The loss of an entry's data: a record is handed and the posted contributors' fences are marked (R98). -/
def recordEntryLoss (s : State) (e : EntryId) (k : LossKind) : State :=
  markEntryFences (handRecord s (entryRecord s.entries[e] k s.timeBase)) e

/-- A drain is resolved, in the order of R100: confirmations, record, fence marks, then the entry FREE
(R97 to R99). -/
def resolveEntry (s : State) (e : EntryId) (o : OpOutcome) : State :=
  let t := answerWaiting s e (writeStatus o)
  freeEntry (match lossOf o with
    | some k => recordEntryLoss t e k
    | none => t) e

/-- An op's outcome is resolved at its source (R131). -/
def resolveSource (s : State) (src : Source) (o : OpOutcome) : State :=
  match src with
  | .slot i => resolveSlot s i o
  | .entry e => resolveEntry s e o

/-! ## The response timeout (R136) -/

/-- An OUTSTANDING op is at or beyond the memory response timeout. -/
def opDue (s : State) (op : OutstandingOp) : Bool :=
  s.active.responseTimeout.toNat ≤ ageOf s.timeBase op.issueTime

/-- An op times out: its source is resolved, its tag is QUARANTINED, TIMEOUTS rises and MEM_TIMEOUT is raised. -/
def timeOut (s : State) (t : TagId) (op : OutstandingOp) : State :=
  raiseMemTimeout (countTimeout (setTag (resolveSource s op.source .timeout) t .quarantined))

/-- The response timeout is judged for one op. -/
def judgeTimeout (s : State) (t : TagId) : State :=
  match s.tags[t] with
  | .outstanding op => if opDue s op then timeOut s t op else s
  | .free | .quarantined => s

/-- The response timeout is judged for every op, in ascending order of memory tag (R136). -/
def judgeAllTimeouts (s : State) : State := forEach s judgeTimeout

/-! ## Urgency (R110, R111) and budgets (R106 to R108) -/

/-- A class's urgency flag is judged; its setting begins an episode, which is counted (R111). -/
def judgeUrgency (s : State) (k : ClassId) : State :=
  let t := setUrgent s (put s.urgent k (urgentNow s k))
  if urgentNow s k && !s.urgent[k] then countEpisode t k else t

/-- Every urgency flag is judged. -/
def judgeAllUrgency (s : State) : State := forEach s judgeUrgency

/-- A metered class's balance after a refill: raised by the refill, at most the ceiling (R107). -/
def refilled (c : ConfigSet) (k : ClassId) (b : Int) : Int :=
  if metered c k then min (b + refill c k) (ceiling c k) else b

/-- The refill period expires: every metered class is refilled and the refill count returns to 0 (R106, R107). -/
def expireRefill (s : State) : State :=
  setRefillCount (setBalances s (tabulate (fun k => refilled s.active k s.balances[k]))) 0

/-- The refill count equals or exceeds the refill period that the last step took (R106). -/
def refillDue (s : State) : Bool := s.periodInForce.toNat ≤ s.refillCount

/-- The refill period is judged (R106). -/
def judgeRefill (s : State) : State := if refillDue s then expireRefill s else s

/-- A balance after a charge: lowered if the class is metered, at least −64 (R108). -/
def charged (c : ConfigSet) (k : ClassId) (b : Int) (n : Nat) : Int :=
  if metered c k then max Config.balanceFloor (b - n) else b

/-- A charge to a class: its balance, and BYTES_CHARGED by the full amount (R108). -/
def charge (s : State) (k : ClassId) (n : Nat) : State :=
  countBytes (setBalances s (put s.balances k (charged s.active k s.balances[k] n))) k n

/-! ## The part becoming empty (R164, R170, R171) -/

/-- Restart completion: every balance at its ceiling, the pointer at class 0, RUNNING, RESTARTED raised (R171). -/
def completeRestart (s : State) : State :=
  raiseRestarted (setPart (setPointer (setBalances s (tabulate (fun k => ceiling s.active k))) 0) .running)

/-- The empty conditions are judged: a DRAINING part becomes QUIESCENT, raising DRAINED; a RESTARTING part
completes its restart (R164, R170). -/
def judgeEmpty (s : State) : State :=
  match s.part with
  | .draining => if emptyConditions s then raiseDrained (setPart s .quiescent) else s
  | .restarting => if emptyConditions s then completeRestart s else s
  | .running | .quiescent => s

/-- The end of an event that began in `before`: references join the Response Queue, then the empty conditions
are judged. -/
def conclude (before after : State) : State := judgeEmpty (publish before after)

/-- A management command's answer (R174). -/
def answerMgmt (s : State) (st : MgmtStatus) (value : Word) : State := setMgmt s (some { status := st, value })

/-- The outcome of a command that the part does not take while RESET is asserted (R173). -/
def unlessReset (s : State) (t : State) : Host.Outcome State Fault Refusal :=
  if s.resetLine then .next s else .next t

end Sys2Proof.Machine
end

