-- ==== Sys2Proof/Machine/Arbiter.lean ====
section
/-! DEFINITION. The Issue Arbiter with the grants it makes: line-eligibility (R62, R63), the action of a grant
(R77 to R81, R85 to R87), the choice (R112 to R118), GRANT (R119) and DRAIN_GRANT (R96). -/

namespace Sys2Proof.Machine

/-! ## The action of a grant -/

/-- What a grant of a QUEUED slot would do (R85, R113 and the table of 5.2). -/
inductive Action where
  | forward (e : EntryId)
  | overlayRead (e : EntryId)
  | plainRead
  | merge (e : EntryId)
  | mergeWait (e : EntryId)
  | allocate (e : EntryId)
  | direct
  deriving DecidableEq, Repr

/-- The lowest-numbered FREE merge entry (R77). -/
def firstFreeEntry (s : State) : Option EntryId := firstWhere (fun e => s.entries[e].state == .free)

/-- The lanes a READ asks for (R1). -/
def requestedLanes (x : Slot) : LaneMask := laneRange x.offset x.length

/-- The action of a READ against an OPEN or DRAIN_PENDING entry (R85): none for a STRICT READ, which waits. -/
def readLive (s : State) (x : Slot) (e : EntryId) : Option Action :=
  match x.forwarding with
  | .strict => none
  | .allowed => if lanesWithin (requestedLanes x) s.entries[e].valid then some (.forward e) else some (.overlayRead e)

/-- The action of a WRITE against an OPEN or DRAIN_PENDING entry (R79, R80). -/
def writeLive (x : Slot) (e : EntryId) : Action :=
  match x.mode with
  | .merge | .post => .merge e
  | .confirm => .mergeWait e

/-- The action of a WRITE on a line with no entry (R77, R81): none for a MERGE-mode WRITE with no FREE entry. -/
def writeAlone (s : State) (x : Slot) : Option Action :=
  match x.mode with
  | .merge => (firstFreeEntry s).map .allocate
  | .post | .confirm => some .direct

/-- The action a grant of the slot would take, from the state as it stands: some exactly where the merge-state
condition holds (R63), and then the action of R85, R77, R79, R80 or R81. -/
def actionOf (s : State) (i : SlotId) : Option Action :=
  let x := s.slots[i]
  match mergeRef s x.line with
  | some e =>
      if entryLive s.entries[e] then
        match x.kind with
        | .read => readLive s x e
        | .write => some (writeLive x e)
      else
        match x.kind with
        | .read => some .plainRead
        | .write => none
  | none =>
      match x.kind with
      | .read => some .plainRead
      | .write => writeAlone s x

/-- The slots that stand before a slot in its line list. -/
def olderOnLine (s : State) (i : SlotId) : List SlotId := (lineList s s.slots[i].line).takeWhile (fun j => j != i)

/-- The order condition (R62): no older WRITE for a READ, nothing older at all for a WRITE. -/
def orderCondition (s : State) (i : SlotId) : Bool :=
  match s.slots[i].kind with
  | .read => (olderOnLine s i).all (fun j => s.slots[j].kind != .write)
  | .write => (olderOnLine s i).isEmpty

/-- Whether an action issues a memory op (R113). -/
def needsOp : Action → Bool
  | .overlayRead _ | .plainRead | .direct => true
  | .forward _ | .merge _ | .mergeWait _ | .allocate _ => false

/-- The action of a slot that is QUEUED, line-eligible (R62, R63) and grantable (R113); none otherwise. -/
def grantableAction (s : State) (i : SlotId) : Option Action :=
  if s.slots[i].state == .queued && orderCondition s i then
    (actionOf s i).filter (fun a => !needsOp a || canIssue s)
  else none

/-! ## The choice -/

/-- The slot is a candidate of class `e`: QUEUED, of that class or promoted into it (R112). -/
def candidateAt (s : State) (e : ClassId) (i : SlotId) : Bool :=
  s.slots[i].state == .queued && (s.slots[i].cls == e || s.slots[i].effCls == some e)

/-- What class `e` offers: its oldest candidate that is line-eligible and grantable, with its action (R117). -/
def offer (s : State) (e : ClassId) : Option (SlotId × Action) :=
  (s.arrival.filter (candidateAt s e)).findSome? (fun i => (grantableAction s i).map (fun a => (i, a)))

/-- A choice of the arbiter: a drain, or a slot with its action, the class it was chosen at, and whether it was
chosen in category 5. -/
inductive Choice where
  | drain (e : EntryId)
  | slot (i : SlotId) (a : Action) (cls : ClassId) (roundRobin : Bool)
  deriving DecidableEq, Repr

/-- The classes from 5 down to 0. -/
def classesDown : List ClassId := [5, 4, 3, 2, 1, 0]

/-- The classes from the round-robin pointer upward, from 5 round to 0 (R118). -/
def classesFrom (p : ClassId) : List ClassId := (List.finRange 6).map (fun j => p + j)

/-- The first of the classes, of those that satisfy `p`, that offers a candidate (R116). -/
def firstOffer (s : State) (classes : List ClassId) (p : ClassId → Bool) (roundRobin : Bool) : Option Choice :=
  (classes.filter p).findSome? (fun e => (offer s e).map (fun c => .slot c.1 c.2 e roundRobin))

def holdsDemanded (m : MergeEntry) : Bool := m.reasons.any demanded

/-- Category 1: drains with a demanded reason, earliest demand time first (R114, R116). -/
def demandedDrain (s : State) : Option Choice :=
  if canIssue s then
    (oldestEntry (fun e => s.entries[e].state == .drainPending && holdsDemanded s.entries[e])
      (fun e => ageOf s.timeBase (s.entries[e].demandTime.getD s.timeBase))).map .drain
  else none

/-- Category 4: drains with background reasons only, earliest first-merge time first (R114, R116). -/
def backgroundDrain (s : State) : Option Choice :=
  if canIssue s then
    (oldestEntry (fun e => s.entries[e].state == .drainPending && !holdsDemanded s.entries[e])
      (fun e => ageOf s.timeBase s.entries[e].firstMerge)).map .drain
  else none

/-- The grant the arbiter makes from the state as it stands: the first category that offers one (R116). -/
def choose (s : State) : Option Choice :=
  (demandedDrain s).or <|
  (firstOffer s classesDown (fun e => s.urgent[e] && standing s e != .held) false).or <|
  (firstOffer s classesDown (fun e => standing s e == .inBudget) false).or <|
  (backgroundDrain s).or <|
  firstOffer s (classesFrom s.pointer) (fun e => standing s e == .overBudget) true

/-! ## Acting on a slot's grant -/

/-- The granted slot leaves its class queue and its line list, and no longer holds an effective class (R39, R72). -/
def dequeue (s : State) (i : SlotId) : State :=
  let x := s.slots[i]
  leaveLine
    (setSlot (setQueues s (put s.queues x.cls (without i s.queues[x.cls]))) i { x with effCls := none }) x.line i

/-- The lanes of the slot in the entry's data, the valid mask and the contributors (R78). A MERGE- or POST-mode
WRITE marks its initiator posted; a CONFIRM-mode one joins it confirmed-only and leaves a mark as it stands. -/
def mergedEntry (m : MergeEntry) (x : Slot) : MergeEntry :=
  { m with
    data := overlay x.lanes x.data m.data
    valid := lanesUnion m.valid x.lanes
    contributors := put m.contributors x.initiator
      (match x.mode with
        | .merge | .post => some .posted
        | .confirm => some (m.contributors[x.initiator].getD .confirmedOnly)) }

/-- A merge of the slot into the entry; FULL is added where it leaves all 64 lanes valid (R78, R92). -/
def mergeInto (s : State) (i : SlotId) (e : EntryId) : State :=
  let t := countMerge (setEntry s e (mergedEntry s.entries[e] s.slots[i]))
  if lanesFull t.entries[e].valid then addReason t e .full else t

/-- A granted slot becomes DONE with OK (R39). -/
def finishOk (s : State) (i : SlotId) : State :=
  setSlot s i { s.slots[i] with state := .done, status := some .ok }

/-- A forward: the entry's data for each requested lane, DONE with OK (R86). -/
def doForward (s : State) (i : SlotId) (e : EntryId) : State :=
  countForward (finishOk (setSlot s i
    { s.slots[i] with data := keepLanes (requestedLanes s.slots[i]) s.entries[e].data }) i)

/-- A LINE_READ is issued for the slot, which becomes ISSUED (R85). -/
def doPlainRead (s : State) (i : SlotId) : State :=
  issueForSlot (setSlot s i { s.slots[i] with state := .issued }) i .lineRead

/-- An overlay read: the entry's valid lanes are the snapshot, and a LINE_READ is issued (R87). -/
def doOverlay (s : State) (i : SlotId) (e : EntryId) : State :=
  countOverlay (doPlainRead (setSlot s i
    { s.slots[i] with snapshot := some s.entries[e].valid, data := keepLanes s.entries[e].valid s.entries[e].data }) i)

/-- A posted WRITE is merged into the line's entry and is DONE with OK (R79). -/
def doMerge (s : State) (i : SlotId) (e : EntryId) : State := finishOk (mergeInto s i e) i

/-- The slot joins the entry's waiting confirmations and becomes WAIT_DRAIN (R80). -/
def awaitDrain (s : State) (i : SlotId) (e : EntryId) : State :=
  setEntry (setSlot s i { s.slots[i] with state := .waitDrain }) e
    { s.entries[e] with waiting := s.entries[e].waiting ++ [i] }

/-- A CONFIRM WRITE is merged, waits for the entry's drain, and adds CONFIRM (R80). -/
def doMergeWait (s : State) (i : SlotId) (e : EntryId) : State :=
  addReason (awaitDrain (mergeInto s i e) i e) e .confirm

/-- The entry a MERGE-mode WRITE allocates, before its merge (R77). -/
def allocatedEntry (x : Slot) (now : Time) : MergeEntry :=
  { MergeEntry.free with state := .opened, line := x.line, window := x.window, epoch := x.epoch, firstMerge := now }

/-- DRAIN_CMD is added to an entry allocated while the part is DRAINING (R77, R95). -/
def drainCmdIfDraining (s : State) (e : EntryId) : State :=
  if s.part == .draining then addReason s e .drainCmd else s

/-- A MERGE-mode WRITE allocates the entry, sets its line's merge reference and merges into it (R77). -/
def doAllocate (s : State) (i : SlotId) (e : EntryId) : State :=
  let x := s.slots[i]
  drainCmdIfDraining
    (doMerge (setMergeRef (setEntry s e (allocatedEntry x s.timeBase)) x.line (some e)) i e) e

/-- A direct MASKED_WRITE from the slot's own data: a POST-mode slot is DONE with OK, a CONFIRM-mode one ISSUED
(R81). -/
def doDirect (s : State) (i : SlotId) : State :=
  let t := issueForSlot s i (.maskedWrite s.slots[i].lanes)
  match s.slots[i].mode with
  | .merge | .post => finishOk t i
  | .confirm => setSlot t i { t.slots[i] with state := .issued }

/-- The action of a grant (R119 step 2). -/
def doAction (s : State) (i : SlotId) : Action → State
  | .forward e => doForward s i e
  | .overlayRead e => doOverlay s i e
  | .plainRead => doPlainRead s i
  | .merge e => doMerge s i e
  | .mergeWait e => doMergeWait s i e
  | .allocate e => doAllocate s i e
  | .direct => doDirect s i

/-- The entry an action merges the slot into. -/
def mergeTarget : Action → Option EntryId
  | .merge e | .mergeWait e | .allocate e => some e
  | .forward _ | .overlayRead _ | .plainRead | .direct => none

/-- A WAITING fence's wait set holds the slot. -/
def fenceHoldsSlot (f : FenceRecord) (i : SlotId) : Bool := f.state == .waiting && f.waitSlots.contains i

/-- The entry joins the wait set of each WAITING fence that holds the merged slot, and takes FENCE (R150). -/
def joinWaitSets (s : State) (i : SlotId) (e : EntryId) : State :=
  let t := mapFences s (fun f =>
    if fenceHoldsSlot f i then { f with waitEntries := addTo (List.finRange 16) e f.waitEntries } else f)
  if anyOf (fun k => fenceHoldsSlot s.fences[k] i) then addReason t e .fence else t

/-- R150 for an action that merges. -/
def joinIfMerged (s : State) (i : SlotId) (a : Action) : State :=
  match mergeTarget a with
  | some e => joinWaitSets s i e
  | none => s

/-- PRESSURE is judged at an allocation (R94). -/
def pressureIfAllocated (s : State) (a : Action) : State :=
  match a with
  | .allocate _ => judgePressure s
  | .forward _ | .overlayRead _ | .plainRead | .merge _ | .mergeWait _ | .direct => s

/-- The charge of a grant (R108). -/
def chargeOf (x : Slot) : Action → Nat
  | .forward _ => 0
  | .overlayRead _ | .plainRead => Config.lineCharge
  | .merge _ | .mergeWait _ | .allocate _ | .direct => lanesCount x.lanes

/-- The pointer moves to the class after the one granted, at a category 5 grant (R118). -/
def movePointer (s : State) (cls : ClassId) (roundRobin : Bool) : State :=
  if roundRobin then setPointer s (cls + 1) else s

/-- The line's part of a grant, after the action: STRICT READs it leaves leading demand, the merged entry joins
wait sets, PRESSURE is judged at an allocation, and a line entry left with nothing is removed (R72, R77). -/
def followLine (s : State) (i : SlotId) (line : LineAddr) (a : Action) : State :=
  tidyLine (pressureIfAllocated (joinIfMerged (judgeStrict s line) i a) a) line

/-- A grant of a QUEUED slot (R119): it leaves its queue and line list and the line's effective classes are
computed again; the action is taken; the charge falls on its own class; the pointer moves; its own class's
urgency is judged. -/
def grantSlot (s : State) (i : SlotId) (a : Action) (cls : ClassId) (roundRobin : Bool) : State :=
  let x := s.slots[i]
  let t := followLine (doAction (recompute (dequeue s i) x.line) i a) i x.line a
  judgeUrgency (movePointer (charge t x.cls (chargeOf x a)) cls roundRobin) x.cls

/-- The grant of a drain (R96): the MASKED_WRITE is issued and the entry is DRAINING. -/
def grantDrain (s : State) (e : EntryId) : State :=
  let t := issueForEntry s e
  countDrain (setEntry t e { t.entries[e] with state := .draining })

/-- The arbiter's next grant where it is one of a slot. -/
def nextSlotGrant (s : State) : State :=
  match choose s with
  | some (.slot i a cls rr) => publish s (grantSlot s i a cls rr)
  | some (.drain _) => s
  | none => s

/-- The arbiter's next grant where it is one of a drain. -/
def nextDrainGrant (s : State) : State :=
  match choose s with
  | some (.drain e) => grantDrain s e
  | some (.slot ..) => s
  | none => s

/-- GRANT (R119). DESIGN CHOICE (log 5): where the arbiter's choice is no slot, this grant is not made. -/
def execGrant (s : State) : Host.Outcome State Fault Refusal := unlessReset s (nextSlotGrant s)

/-- DRAIN_GRANT (R96). DESIGN CHOICE (log 5): where the arbiter's choice is no drain, this grant is not made. -/
def execDrainGrant (s : State) : Host.Outcome State Fault Refusal := unlessReset s (nextDrainGrant s)

end Sys2Proof.Machine
end

