-- ==== Sys2Proof/Machine/Control.lean ====
section
/-! DEFINITION. Regulator Control: DRAIN (R163), RESUME (R166), RESTART (R167), HARD_RESET (R172) and
RESET_DEASSERT (R173). -/

namespace Sys2Proof.Machine

/-- A DONE answer to DRAIN, RESUME or RESTART carries the code of the part state after the event (R162). -/
def answerPart (s : State) : State := answerMgmt s .done (BitVec.ofNat 32 (partCode s.part))

/-- A BUSY answer carries value zero and leaves the rest as it stood (R162). -/
def answerBusy (s : State) : State := answerMgmt s .busy 0

/-- DRAIN_CMD is added to every OPEN or DRAIN_PENDING entry (R163). -/
def demandAll (s : State) : State := forEach s (fun t e => addReason t e .drainCmd)

/-- DRAIN by the part state in which it is taken (R162, R163). -/
def drainPart (s : State) : State :=
  match s.part with
  | .running => answerPart (judgeEmpty (demandAll (setPart s .draining)))
  | .draining | .quiescent => answerPart s
  | .restarting => answerBusy s

/-- DRAIN (R163). -/
def execDrain (s : State) : Host.Outcome State Fault Refusal := unlessReset s (drainPart s)

/-- RESUME by the part state in which it is taken (R162, R166). -/
def resumePart (s : State) : State :=
  match s.part with
  | .running => answerPart s
  | .draining | .quiescent => answerPart (setPart s .running)
  | .restarting => answerBusy s

/-- RESUME (R166). -/
def execResume (s : State) : Host.Outcome State Fault Refusal := unlessReset s (resumePart s)

/-! ## RESTART (R167) -/

/-- What RESTART makes of a slot (R43). -/
def restartSlot (x : Slot) : Slot :=
  match x.state with
  | .queued | .waitDrain => { x with state := .done, status := some .errAbort, effCls := none }
  | .issued => { x with abort := true }
  | .free | .done => x

/-- Step 1: slots aborted or marked, every class queue empty, every list of waiting confirmations empty. -/
def restartSlots (s : State) : State :=
  setEntries
    (setQueues (setSlots s (tabulate (fun i => restartSlot s.slots[i]))) (Vector.replicate 6 []))
    (tabulate (fun e => { s.entries[e] with waiting := [] }))

/-- A discarded entry leaves a wait set; the fences themselves complete in step 5 (R101, R153). -/
def withdrawEntry (e : EntryId) (f : FenceRecord) : FenceRecord :=
  if f.state == .waiting then { f with waitEntries := without e f.waitEntries } else f

/-- An OPEN or DRAIN_PENDING entry is discarded: a DISCARDED record is handed, the posted contributors' fences are
marked, and the entry is FREE and leaves every wait set and its line's reference (R101). No entry is left OPEN
by the discards, so the PRESSURE judgement of R94 adds nothing. -/
def discardEntry (s : State) (e : EntryId) : State :=
  if entryLive s.entries[e] then
    setMergeRef
      (mapFences (setEntry (recordEntryLoss s e .discarded) e MergeEntry.free) (withdrawEntry e))
      s.entries[e].line none
  else s

/-- Step 2: the discards, in ascending order of entry number. -/
def discardAll (s : State) : State := forEach s discardEntry

/-- Step 3: every line list is empty, and a line entry left with no merge reference is removed (R73). -/
def clearLines (s : State) : State :=
  setLines s ((s.lines.map (fun l => { l with list := [] })).filter (fun l => l.mergeRef.isSome))

/-- Step 4: every urgency flag is cleared (R123). -/
def clearUrgency (s : State) : State := setUrgent s (Vector.replicate 6 false)

/-- What RESTART makes of a fence record (R153). -/
def restartFence (f : FenceRecord) : FenceRecord :=
  match f.state with
  | .waiting =>
      { f with state := .completed, waitSlots := [], waitFences := [], waitEntries := []
               status := some (if f.faulted then .fenceFaulted else .errAbort) }
  | .free | .completed => f

/-- The six steps of R167 and the judgement of the empty conditions (R170). -/
def restartNow (s : State) : State :=
  conclude s (mapFences (clearUrgency (clearLines (discardAll (restartSlots (setPart s .restarting))))) restartFence)

/-- RESTART by the part state in which it is taken (R162, R167). -/
def restartPart (s : State) : State :=
  match s.part with
  | .running | .draining | .quiescent => answerPart (restartNow s)
  | .restarting => answerBusy s

/-- RESTART (R167). -/
def execRestart (s : State) : Host.Outcome State Fault Refusal := unlessReset s (restartPart s)

/-! ## Hard reset -/

/-- HARD_RESET (R172, R173): every block at its reset state, RESET asserted. The HOLD input keeps its level, and
the commands that wait are not the part's. -/
def execHardReset (s : State) : Host.Outcome State Fault Refusal :=
  .next { State.reset with resetLine := true, holdLine := s.holdLine, pending := s.pending }

/-- RESET_DEASSERT (R173): the RESET input is released. -/
def execResetDeassert (s : State) : Host.Outcome State Fault Refusal := .next (setResetLine s false)

end Sys2Proof.Machine
end

