-- ==== Sys2Proof/Machine/Intake.lean ====
section
/-! DEFINITION. Intake and Response Return: PRESENTATION (R5 to R13, R20 to R32, R37, R58, R147 to R149) and
DELIVERY (R14 to R17). -/

namespace Sys2Proof.Machine

/-! ## The checks of R7 -/

/-- The tag is in use for the initiator (R12). -/
def tagInUse (s : State) (i : InitiatorId) (t : ReqTag) : Bool := s.tagTable[i][t]

/-- Steps 4 and 5 of R7 for a READ or WRITE: the status of the first that fails. -/
def windowFailure (s : State) (a : AccessReq) : Option Status :=
  match coveringWindow s.active a.line with
  | none => some .errDecode
  | some w =>
      if accessAllowed (windowAttrs s.active w) (initiatorGroup s.active a.initiator) a.kind then none
      else some .errDenied

/-- Steps 1 to 5 of R7, in order: the status of the first that fails. -/
def checkFailure (s : State) (r : Request) : Option Status :=
  if shapeOk r = false then some .errShape
  else if initiatorEnabled s.active (initiatorOf r) = false then some .errDenied
  else if tagInUse s (initiatorOf r) (tagOf r) then some .errTag
  else match accessOf r with
    | some a => windowFailure s a
    | none => none

/-- The class of a READ or WRITE covered by a window (R31). -/
def requestClass (s : State) (a : AccessReq) (w : WindowIndex) : ClassId :=
  policyClass (windowAttrs s.active w) (mappedClass s.active (initiatorGroup s.active a.initiator) a.urgency)

/-! ## The answers -/

def deferUnclassed (s : State) : State := setAnswer (countUnclassed s) (some .defer)

def deferClass (s : State) (k : ClassId) : State := setAnswer (countDeferral s k) (some .defer)

/-- A refusal, where a record is FREE: the record is HELD, its reference joins the Response Queue, REFUSALS
rises; else a DEFER (R10). DESIGN CHOICE (log 4): the lowest-numbered FREE record is the one filled. -/
def refuse (s : State) (r : Request) (st : Status) : State :=
  match firstWhere (fun k => s.refusals[k].isNone) with
  | none => deferUnclassed s
  | some k =>
      setAnswer
        (countRefusal
          (setResponses
            (setRefusals s (put s.refusals k
              (some { initiator := initiatorOf r, tag := tagOf r, kind := kindOf r, status := st })))
            (s.responses ++ [.refusal k]))
          st)
        (some .accept)

def markTag (s : State) (i : InitiatorId) (t : ReqTag) : State :=
  setTagTable s (put s.tagTable i (put s.tagTable[i] t true))

def clearTag (s : State) (i : InitiatorId) (t : ReqTag) : State :=
  setTagTable s (put s.tagTable i (put s.tagTable[i] t false))

/-- The slot of an accepted READ or WRITE (R32, R37). -/
def acceptedSlot (s : State) (a : AccessReq) (w : WindowIndex) : Slot :=
  { state := .queued, initiator := a.initiator, tag := a.tag, kind := a.kind, line := a.line, offset := a.offset,
    length := a.length, lanes := a.lanes, data := a.data, snapshot := none, cls := requestClass s a w,
    effCls := some (requestClass s a w), window := w, mode := writeModeOf (windowAttrs s.active w).mode,
    forwarding := forwardingOf (windowAttrs s.active w).forwarding,
    policy := faultPolicyOf (windowAttrs s.active w).faultPolicy, epoch := s.epoch, arrivalTime := s.timeBase,
    age := 0, memTag := none, abort := false, status := none, delivered := false }

/-- A slot joins the back of its class queue and of the arrival list (R37, R45, R47). -/
def enqueue (s : State) (i : SlotId) (k : ClassId) : State :=
  setArrival (setQueues s (put s.queues k (s.queues[k] ++ [i]))) (s.arrival ++ [i])

/-- The acceptance of a READ or WRITE into slot `i` (R8, R37, R58): the tag is marked, the slot joins its class
queue, the arrival list and its line's list; effective classes are computed again (R69) and a STRICT READ
that leads adds its demand (R64). -/
def acceptAccess (s : State) (a : AccessReq) (w : WindowIndex) (i : SlotId) : State :=
  let t := enqueue (setSlot (markTag s a.initiator a.tag) i (acceptedSlot s a w)) i (requestClass s a w)
  setAnswer (countAccepted (judgeStrict (recompute (joinLine t a.line i) a.line) a.line) (requestClass s a w))
    (some .accept)

/-- Step 6 of R7 for a READ or WRITE of the class R31 gives: accepted into the lowest-numbered FREE slot, or
DEFERred against its class (R8, R37, R51). -/
def takeAccess (s : State) (a : AccessReq) (w : WindowIndex) : State :=
  match firstWhere (fun i => s.slots[i].state == .free) with
  | some i => if acceptanceTest s (requestClass s a w) then acceptAccess s a w i else deferClass s (requestClass s a w)
  | none => deferClass s (requestClass s a w)

/-- The record of an accepted FENCE with the wait set captured from the state (R147, R148). -/
def capturedFence (s : State) (i : InitiatorId) (t : ReqTag) : FenceRecord :=
  { state := .waiting, initiator := i, tag := t, acceptTime := s.timeBase, epoch := s.epoch
    waitSlots := (List.finRange 48).filter (fun j => slotLive s.slots[j] && s.slots[j].initiator == i)
    waitFences := (List.finRange 8).filter (fun j => s.fences[j].state != .free && s.fences[j].initiator == i)
    waitEntries := (List.finRange 16).filter (fun e =>
      s.entries[e].state != .free && s.entries[e].contributors[i].isSome)
    faulted := false, status := none }

/-- FENCE is added to every captured entry that is OPEN or DRAIN_PENDING (R149). -/
def demandFence (s : State) (es : List EntryId) : State := es.foldl (fun t e => addReason t e .fence) s

/-- The acceptance of a FENCE into record `k` (R147): completed at once with OK if its wait set is empty. -/
def acceptFence (s : State) (i : InitiatorId) (t : ReqTag) (k : FenceId) : State :=
  let f := capturedFence s i t
  let u := setFenceOrder (setFence (markTag s i t) k (settleFence f)) (s.fenceOrder ++ [k])
  setAnswer (publish s (demandFence u f.waitEntries)) (some .accept)

/-- Step 6 of R7 for a FENCE: the lowest-numbered FREE record, or a DEFER (R9, R147). -/
def takeFence (s : State) (i : InitiatorId) (t : ReqTag) : State :=
  match firstWhere (fun k => s.fences[k].state == .free) with
  | some k => acceptFence s i t k
  | none => deferUnclassed s

/-- A presentation that passes steps 1 to 5. -/
def takePassing (s : State) (r : Request) : State :=
  match accessOf r with
  | some a =>
      match coveringWindow s.active a.line with
      | some w => takeAccess s a w
      | none => s
  | none => takeFence s (initiatorOf r) (tagOf r)

/-- Intake's answer to a presentation (R6, R7). -/
def intake (s : State) (r : Request) : State :=
  if s.part != .running then deferUnclassed s
  else match checkFailure s r with
    | some st => refuse s r st
    | none => takePassing s r

/-- PRESENTATION (R7). While RESET is asserted it receives neither ACCEPT nor DEFER and nothing is counted (R173). -/
def execPresentation (r : Request) (s : State) : Host.Outcome State Fault Refusal := unlessReset s (intake s r)

/-! ## Delivery -/

/-- The bytes of a READ's requested lanes, in lane order (R14). -/
def requestedBytes (x : Slot) : List Byte :=
  ((List.finRange 64).filter (fun l => (laneRange x.offset x.length)[l])).map (fun l => x.data[l])

/-- A slot's response data: for a READ answered OK or POISONED (R14). -/
def slotResponseData (x : Slot) (st : Status) : Option (List Byte) :=
  match x.kind, st with
  | .read, .ok => some (requestedBytes x)
  | .read, .poisoned => some (requestedBytes x)
  | _, _ => none

def kindOfAccess : Access → Kind
  | .read => .read
  | .write => .write

/-- The response of a DONE slot (R14). -/
def slotResponse (x : Slot) (st : Status) : Response :=
  { initiator := x.initiator, tag := x.tag, kind := kindOfAccess x.kind, status := st, data := slotResponseData x st }

/-- The response the reference names (R14): none for a reference to a record that holds no answer. -/
def responseOf (s : State) : Ref → Option Response
  | .slot i => s.slots[i].status.map (slotResponse s.slots[i])
  | .fence k => s.fences[k].status.map (fun st =>
      { initiator := s.fences[k].initiator, tag := s.fences[k].tag, kind := .fence, status := st, data := none })
  | .refusal k => s.refusals[k].map (fun x =>
      { initiator := x.initiator, tag := x.tag, kind := x.kind, status := x.status, data := none })

/-- The response shown on the response group: that of the front reference; none while RESET is asserted (R16, R173). -/
def shownResponse (s : State) : Option Response :=
  if s.resetLine then none
  else match s.responses with
    | [] => none
    | ref :: _ => responseOf s ref

/-- What a delivery releases (R17). -/
def releaseRef (s : State) : Ref → State
  | .slot i =>
      let x := s.slots[i]
      let t := setSlot (clearTag s x.initiator x.tag) i { x with delivered := true }
      if x.memTag.isNone then freeSlot t i else t
  | .fence k =>
      let f := s.fences[k]
      departFence
        (setFenceOrder (setFence (clearTag s f.initiator f.tag) k FenceRecord.free) (without k s.fenceOrder)) k
  | .refusal k => setRefusals s (put s.refusals k none)

/-- The delivery of the front reference (R16, R17), and the completions and part state it brings about. -/
def deliver (s : State) : State :=
  match s.responses with
  | [] => s
  | ref :: rest => conclude s (releaseRef (setTaken (setResponses s rest) (responseOf s ref)) ref)

/-- DELIVERY (R16). With nothing shown there is nothing to take. -/
def execDelivery (s : State) : Host.Outcome State Fault Refusal := unlessReset s (deliver s)

end Sys2Proof.Machine
end

