-- ==== Sys2Proof/Machine/Items.lean ====
section
/-! DEFINITION. The item map (R194): the staged items with their numbers and fields, and every other item a
management command can name (R176, R177). -/

namespace Sys2Proof.Machine

/-! ## Staged items -/

/-- The fields of a window other than its range and enabled flag, in item order. -/
inductive AttrField where
  | access | mode | forwarding | policy | classValue | faultPolicy
  deriving DecidableEq, Repr

/-- The fields of a window's range and its enabled flag, in item order. -/
inductive RangeField where
  | enabled | baseHi | baseLo | limitHi | limitLo
  deriving DecidableEq, Repr

/-- The fields of a class, in item order. -/
inductive ClassField where
  | reservation | cap | metered | ceiling | refill | hardCap | latencyLimit
  deriving DecidableEq, Repr

/-- One staged item for each configuration field (R180, R194). -/
inductive StagedItem where
  | initiatorEnabled (i : InitiatorId)
  | initiatorGroup (i : InitiatorId)
  | classMap (g : GroupId) (u : Urgency)
  | windowRange (w : WindowId) (f : RangeField)
  | windowAttr (w : WindowId) (f : AttrField)
  | dfltEnabled
  | dfltAttr (f : AttrField)
  | cls (c : ClassId) (f : ClassField)
  | refillPeriod
  | responseTimeout
  | holdLimit
  | mergeReserve
  | alertMask
  deriving DecidableEq, Repr

def rangeOffset : RangeField → Nat
  | .enabled => 0 | .baseHi => 1 | .baseLo => 2 | .limitHi => 3 | .limitLo => 4

def rangeFieldAt : Nat → Option RangeField
  | 0 => some .enabled | 1 => some .baseHi | 2 => some .baseLo | 3 => some .limitHi | 4 => some .limitLo
  | _ => none

def attrOffset : AttrField → Nat
  | .access => 5 | .mode => 6 | .forwarding => 7 | .policy => 8 | .classValue => 9 | .faultPolicy => 10

def attrFieldAt : Nat → Option AttrField
  | 5 => some .access | 6 => some .mode | 7 => some .forwarding | 8 => some .policy | 9 => some .classValue
  | 10 => some .faultPolicy
  | _ => none

def classOffset : ClassField → Nat
  | .reservation => 0 | .cap => 1 | .metered => 2 | .ceiling => 3 | .refill => 4 | .hardCap => 5
  | .latencyLimit => 6

def classFieldAt : Nat → Option ClassField
  | 0 => some .reservation | 1 => some .cap | 2 => some .metered | 3 => some .ceiling | 4 => some .refill
  | 5 => some .hardCap | 6 => some .latencyLimit
  | _ => none

/-- The number of a staged item (R194). -/
def stagedNumber : StagedItem → Nat
  | .initiatorEnabled i => 0x1000 + 2 * i.val
  | .initiatorGroup i => 0x1001 + 2 * i.val
  | .classMap g u => 0x1100 + 8 * g.val + u.val
  | .windowRange w f => 0x1200 + 16 * w.val + rangeOffset f
  | .windowAttr w f => 0x1200 + 16 * w.val + attrOffset f
  | .dfltEnabled => 0x1300
  | .dfltAttr f => 0x1300 + attrOffset f
  | .cls c f => 0x1400 + 16 * c.val + classOffset f
  | .refillPeriod => 0x1500
  | .responseTimeout => 0x1501
  | .holdLimit => 0x1502
  | .mergeReserve => 0x1503
  | .alertMask => 0x1504

/-- The staged item a number names (R194): items 0x1301 to 0x1304 do not exist. -/
def stagedItemAt (n : Nat) : Option StagedItem :=
  if n < 0x1000 then none
  else if n < 0x1040 then
    let i : InitiatorId := ⟨(n - 0x1000) / 2 % 32, Nat.mod_lt _ (by decide)⟩
    if n % 2 = 0 then some (.initiatorEnabled i) else some (.initiatorGroup i)
  else if n < 0x1100 then none
  else if n < 0x1120 then
    some (.classMap ⟨(n - 0x1100) / 8 % 4, Nat.mod_lt _ (by decide)⟩ ⟨n % 8, Nat.mod_lt _ (by decide)⟩)
  else if n < 0x1200 then none
  else if n < 0x1300 then
    let w : WindowId := ⟨(n - 0x1200) / 16 % 16, Nat.mod_lt _ (by decide)⟩
    match rangeFieldAt (n % 16) with
    | some f => some (.windowRange w f)
    | none => (attrFieldAt (n % 16)).map (.windowAttr w)
  else if n < 0x1310 then
    if n = 0x1300 then some .dfltEnabled else (attrFieldAt (n % 16)).map .dfltAttr
  else if n < 0x1400 then none
  else if n < 0x1460 then
    (classFieldAt (n % 16)).map (.cls ⟨(n - 0x1400) / 16 % 6, Nat.mod_lt _ (by decide)⟩)
  else match n with
    | 0x1500 => some .refillPeriod
    | 0x1501 => some .responseTimeout
    | 0x1502 => some .holdLimit
    | 0x1503 => some .mergeReserve
    | 0x1504 => some .alertMask
    | _ => none

def attrValue (a : WindowAttrs) : AttrField → Word
  | .access => a.access | .mode => a.mode | .forwarding => a.forwarding | .policy => a.policy
  | .classValue => a.classValue | .faultPolicy => a.faultPolicy

def setAttr (a : WindowAttrs) (f : AttrField) (v : Word) : WindowAttrs :=
  match f with
  | .access => { a with access := v } | .mode => { a with mode := v }
  | .forwarding => { a with forwarding := v } | .policy => { a with policy := v }
  | .classValue => { a with classValue := v } | .faultPolicy => { a with faultPolicy := v }

def rangeValue (w : WindowItems) : RangeField → Word
  | .enabled => w.enabled | .baseHi => w.baseHi | .baseLo => w.baseLo | .limitHi => w.limitHi
  | .limitLo => w.limitLo

def setRange (w : WindowItems) (f : RangeField) (v : Word) : WindowItems :=
  match f with
  | .enabled => { w with enabled := v } | .baseHi => { w with baseHi := v } | .baseLo => { w with baseLo := v }
  | .limitHi => { w with limitHi := v } | .limitLo => { w with limitLo := v }

def classValue (k : ClassItems) : ClassField → Word
  | .reservation => k.reservation | .cap => k.cap | .metered => k.metered | .ceiling => k.ceiling
  | .refill => k.refill | .hardCap => k.hardCap | .latencyLimit => k.latencyLimit

def setClassItem (k : ClassItems) (f : ClassField) (v : Word) : ClassItems :=
  match f with
  | .reservation => { k with reservation := v } | .cap => { k with cap := v }
  | .metered => { k with metered := v } | .ceiling => { k with ceiling := v } | .refill => { k with refill := v }
  | .hardCap => { k with hardCap := v } | .latencyLimit => { k with latencyLimit := v }

/-- The value a configuration set holds for an item (R177). -/
def itemValue (c : ConfigSet) : StagedItem → Word
  | .initiatorEnabled i => c.initiators[i].enabled
  | .initiatorGroup i => c.initiators[i].group
  | .classMap g u => c.classMap[g][u]
  | .windowRange w f => rangeValue c.windows[w] f
  | .windowAttr w f => attrValue c.windows[w].attrs f
  | .dfltEnabled => c.dfltWindow.enabled
  | .dfltAttr f => attrValue c.dfltWindow.attrs f
  | .cls k f => classValue c.classes[k] f
  | .refillPeriod => c.refillPeriod
  | .responseTimeout => c.responseTimeout
  | .holdLimit => c.holdLimit
  | .mergeReserve => c.mergeReserve
  | .alertMask => c.alertMask

/-- The configuration set with one item's value replaced, all 32 bits of it (R177). -/
def setItem (c : ConfigSet) (it : StagedItem) (v : Word) : ConfigSet :=
  match it with
  | .initiatorEnabled i => { c with initiators := put c.initiators i { c.initiators[i] with enabled := v } }
  | .initiatorGroup i => { c with initiators := put c.initiators i { c.initiators[i] with group := v } }
  | .classMap g u => { c with classMap := put c.classMap g (put c.classMap[g] u v) }
  | .windowRange w f => { c with windows := put c.windows w (setRange c.windows[w] f v) }
  | .windowAttr w f =>
      { c with windows := put c.windows w { c.windows[w] with attrs := setAttr c.windows[w].attrs f v } }
  | .dfltEnabled => { c with dfltWindow := { c.dfltWindow with enabled := v } }
  | .dfltAttr f => { c with dfltWindow := { c.dfltWindow with attrs := setAttr c.dfltWindow.attrs f v } }
  | .cls k f => { c with classes := put c.classes k (setClassItem c.classes[k] f v) }
  | .refillPeriod => { c with refillPeriod := v }
  | .responseTimeout => { c with responseTimeout := v }
  | .holdLimit => { c with holdLimit := v }
  | .mergeReserve => { c with mergeReserve := v }
  | .alertMask => { c with alertMask := v }

/-! ## Validation (R181) -/

/-- The item, where the check fails. -/
def nameIf (fails : Bool) (it : StagedItem) : List StagedItem := if fails then [it] else []

/-- A value above a limit. -/
def above (v : Word) (limit : Nat) : Bool := decide (limit < v.toNat)

/-- The checks on attributes that a window and the default window share: each names the failing item. -/
def attrFailures (a : WindowAttrs) (item : AttrField → StagedItem) : List StagedItem :=
  nameIf (above a.access 0xFF) (item .access) ++ nameIf (above a.mode 2) (item .mode)
    ++ nameIf (above a.forwarding 1) (item .forwarding) ++ nameIf (above a.policy 2) (item .policy)
    ++ nameIf (above a.classValue 5) (item .classValue) ++ nameIf (above a.faultPolicy 1) (item .faultPolicy)

def initiatorFailures (c : ConfigSet) (i : InitiatorId) : List StagedItem :=
  nameIf (above c.initiators[i].enabled 1) (.initiatorEnabled i)
    ++ nameIf (above c.initiators[i].group 3) (.initiatorGroup i)

def windowFailures (c : ConfigSet) (w : WindowId) : List StagedItem :=
  let x := c.windows[w]
  nameIf (above x.enabled 1) (.windowRange w .enabled)
    ++ nameIf (above x.baseHi 3) (.windowRange w .baseHi) ++ nameIf (above x.limitHi 3) (.windowRange w .limitHi)
    ++ nameIf (lineFromItems x.limitHi x.limitLo < lineFromItems x.baseHi x.baseLo) (.windowRange w .limitLo)
    ++ attrFailures x.attrs (.windowAttr w)

/-- The sum of the reservations of classes 0 to k. -/
def runningReservations (c : ConfigSet) (k : ClassId) : Nat :=
  ((List.finRange 6).filter (fun j => j ≤ k)).foldl (fun t j => t + reservation c j) 0

def classFailures (c : ConfigSet) (k : ClassId) : List StagedItem :=
  let x := c.classes[k]
  nameIf (above x.reservation 8) (.cls k .reservation)
    ++ nameIf (x.cap.toNat == 0 || above x.cap 48) (.cls k .cap)
    ++ nameIf (x.cap.toNat < x.reservation.toNat) (.cls k .reservation)
    ++ nameIf (x.ceiling.toNat < 64 || above x.ceiling 1048575) (.cls k .ceiling)
    ++ nameIf (above x.refill 65535) (.cls k .refill)
    ++ nameIf (above x.latencyLimit 65535) (.cls k .latencyLimit)
    ++ nameIf (above x.metered 1) (.cls k .metered) ++ nameIf (above x.hardCap 1) (.cls k .hardCap)

/-- The reservation-sum check: the class at which the running sum first exceeds 40. -/
def sumFailures (c : ConfigSet) : List StagedItem :=
  match firstWhere (fun k => Config.reservationSumLimit < runningReservations c k) with
  | some k => [.cls k .reservation]
  | none => []

def globalFailures (c : ConfigSet) : List StagedItem :=
  nameIf (c.refillPeriod.toNat == 0 || above c.refillPeriod 4095) .refillPeriod
    ++ nameIf (c.responseTimeout.toNat < 16 || above c.responseTimeout 65535) .responseTimeout
    ++ nameIf (c.holdLimit.toNat == 0 || above c.holdLimit 4095) .holdLimit
    ++ nameIf (above c.mergeReserve 8) .mergeReserve ++ nameIf (above c.alertMask 0x7F) .alertMask

/-- The items the failing checks name (R181). -/
def failures (c : ConfigSet) : List StagedItem :=
  (List.finRange 32).flatMap (initiatorFailures c)
    ++ (List.finRange 4).flatMap (fun g =>
        (List.finRange 8).flatMap (fun u => nameIf (above c.classMap[g][u] 5) (.classMap g u)))
    ++ (List.finRange 16).flatMap (windowFailures c)
    ++ nameIf (above c.dfltWindow.enabled 1) .dfltEnabled ++ attrFailures c.dfltWindow.attrs .dfltAttr
    ++ (List.finRange 6).flatMap (classFailures c) ++ sumFailures c ++ globalFailures c

/-- Every check passes. -/
def valid (c : ConfigSet) : Bool := (failures c).isEmpty

/-- The lowest item number among the items the failing checks name (R182); none when every check passes. -/
def lowestFailure (c : ConfigSet) : Option Nat := ((failures c).map stagedNumber).min?

/-! ## Every item -/

/-- The counters held for each class, in item order. -/
inductive ClassCounter where
  | accepted | bytesCharged | urgentEpisodes | promotions | deferrals
  deriving DecidableEq, Repr

/-- The global counters, in item order. -/
inductive GlobalCounter where
  | deferralsUnclassed | refusedShape | refusedDecode | refusedDenied | refusedTag | forwardedReads
  | overlayReads | mergedWrites | drainsIssued | timeouts | lateCompletions | strayCompletions
  deriving DecidableEq, Repr

/-- The fault readout items, in item order. -/
inductive ReadoutField where
  | info | lineHi | lineLo | lanesLo | lanesHi | contributors | time | overflow
  deriving DecidableEq, Repr

/-- Everything an item number can name (R176, R194). -/
inductive Item where
  | statusWord0 | statusWord1 | timeBase | alertPending
  | fault (f : ReadoutField)
  | balance (c : ClassId)
  | classCounter (c : ClassId) (k : ClassCounter)
  | globalCounter (k : GlobalCounter)
  | staged (f : StagedItem)
  | mirror (f : StagedItem)
  deriving DecidableEq, Repr

def readoutFieldAt : Nat → Option ReadoutField
  | 0 => some .info | 1 => some .lineHi | 2 => some .lineLo | 3 => some .lanesLo | 4 => some .lanesHi
  | 5 => some .contributors | 6 => some .time | 7 => some .overflow
  | _ => none

def classCounterAt : Nat → Option ClassCounter
  | 0 => some .accepted | 1 => some .bytesCharged | 2 => some .urgentEpisodes | 3 => some .promotions
  | 4 => some .deferrals
  | _ => none

def globalCounterAt : Nat → Option GlobalCounter
  | 0 => some .deferralsUnclassed | 1 => some .refusedShape | 2 => some .refusedDecode
  | 3 => some .refusedDenied | 4 => some .refusedTag | 5 => some .forwardedReads | 6 => some .overlayReads
  | 7 => some .mergedWrites | 8 => some .drainsIssued | 9 => some .timeouts | 10 => some .lateCompletions
  | 11 => some .strayCompletions
  | _ => none

/-- The items below the staged items: status, readout, balances and counters (R194). -/
def lowItemAt (n : Nat) : Option Item :=
  if n = 0x0000 then some .statusWord0
  else if n = 0x0001 then some .statusWord1
  else if n = 0x0004 then some .timeBase
  else if n = 0x0008 then some .alertPending
  else if n < 0x0010 then none
  else if n < 0x0018 then (readoutFieldAt (n - 0x0010)).map .fault
  else if n < 0x0020 then none
  else if n < 0x0026 then some (.balance ⟨(n - 0x0020) % 6, Nat.mod_lt _ (by decide)⟩)
  else if n < 0x0100 then none
  else if n < 0x0160 then
    (classCounterAt (n % 16)).map (.classCounter ⟨(n - 0x0100) / 16 % 6, Nat.mod_lt _ (by decide)⟩)
  else if n < 0x0180 then none
  else if n < 0x0200 then (globalCounterAt (n - 0x0180)).map .globalCounter
  else none

/-- The item a number names (R194): the mirror of staged item n is item n + 0x4000. -/
def itemAt (item : BitVec 16) : Option Item :=
  let n := item.toNat
  if n < 0x1000 then lowItemAt n
  else if n < Config.mirrorOffset then (stagedItemAt n).map .staged
  else (stagedItemAt (n - Config.mirrorOffset)).map .mirror

end Sys2Proof.Machine
end

