-- ==== Sys2Proof/Machine/Management.lean ====
section
/-! DEFINITION. The Management Port: READ_ITEM, WRITE_ITEM, COMMIT, DISCARD_STAGED, TAKE_FAULT, ACK_ALERT,
CLEAR_COUNTERS, STATUS, and the frames that carry no known command (R174 to R194). -/

namespace Sys2Proof.Machine

/-! ## The answer on the wire (R174, R194) -/

/-- The status codes of R194. -/
def statusCode : MgmtStatus → Byte
  | .done => 0x00 | .busy => 0x01 | .badItem => 0x02 | .badValue => 0x03 | .empty => 0x04 | .readOnly => 0x05

/-- Bytes 8 to 12 of a frame: the status code, then the answer value big-endian (R174). -/
def answerBytes (a : MgmtAnswer) : List Byte :=
  [statusCode a.status, a.value.extractLsb' 24 8, a.value.extractLsb' 16 8, a.value.extractLsb' 8 8,
   a.value.extractLsb' 0 8]

/-- The bytes a frame drives on MDO: zero during the seven command bytes, the answer, then zero for as long as
MSEL stays asserted (R174). -/
def mdoByte (a : MgmtAnswer) (n : Nat) : Byte :=
  if n < 7 then 0 else (answerBytes a).getD (n - 7) 0

/-! ## Item values (R178, R194) -/

def lossCode : LossKind → Nat
  | .memFault => 1 | .timeout => 2 | .discarded => 3

def windowCode : WindowIndex → Nat
  | .window w => w.val
  | .dflt => 16

/-- The value of a fault readout item for a record taken (R194). -/
def recordField (r : FaultRecord) (overflow : Nat) : ReadoutField → Nat
  | .info => lossCode r.kind + 256 * windowCode r.window + 65536 * r.epoch.toNat
  | .lineHi => r.line.toNat / 2 ^ 32
  | .lineLo => r.line.toNat % 2 ^ 32
  | .lanesLo => packBits 32 (fun n => if h : n < 64 then r.lanes[n] else false)
  | .lanesHi => packBits 32 (fun n => if h : 32 + n < 64 then r.lanes[32 + n] else false)
  | .contributors => packBits 32 (fun n => r.contributors.any (fun i => i.val == n))
  | .time => r.time.toNat
  | .overflow => overflow

/-- A fault readout item: zero while no record has been taken (R160). -/
def readoutValue (r : Readout) (f : ReadoutField) : Word :=
  match r.record with
  | some x => BitVec.ofNat 32 (recordField x r.overflow f)
  | none => 0

def classCounterValue (x : ClassCounters) : ClassCounter → Word
  | .accepted => x.accepted | .bytesCharged => x.bytesCharged | .urgentEpisodes => x.urgentEpisodes
  | .promotions => x.promotions | .deferrals => x.deferrals

def globalCounterValue (x : Counters) : GlobalCounter → Word
  | .deferralsUnclassed => x.deferralsUnclassed | .refusedShape => x.refusedShape
  | .refusedDecode => x.refusedDecode | .refusedDenied => x.refusedDenied | .refusedTag => x.refusedTag
  | .forwardedReads => x.forwardedReads | .overlayReads => x.overlayReads | .mergedWrites => x.mergedWrites
  | .drainsIssued => x.drainsIssued | .timeouts => x.timeouts | .lateCompletions => x.lateCompletions
  | .strayCompletions => x.strayCompletions

/-- The value of an item as it stands (R178). -/
def readValue (s : State) : Item → Word
  | .statusWord0 => statusWord0 s
  | .statusWord1 => statusWord1 s
  | .timeBase => s.timeBase
  | .alertPending => pendingCauses s
  | .fault f => readoutValue s.readout f
  | .balance c => BitVec.ofInt 32 s.balances[c]
  | .classCounter c k => classCounterValue s.counters.perClass[c] k
  | .globalCounter k => globalCounterValue s.counters k
  | .staged f => itemValue s.staged f
  | .mirror f => itemValue s.active f

/-- What a read changes: status word 0 clears SHORT_FRAME; nothing else (R175, R178). -/
def afterRead (s : State) : Item → State
  | .statusWord0 => setShortFrame s false
  | .statusWord1 | .timeBase | .alertPending | .fault _ | .balance _ | .classCounter .. | .globalCounter _
  | .staged _ | .mirror _ => s

/-- A read answered DONE with the item's value as it stood before any clearing (R175, R178). -/
def readAnswered (s : State) (it : Item) : State := answerMgmt (afterRead s it) .done (readValue s it)

/-- READ_ITEM by the item number (R178). -/
def readItem (s : State) (item : BitVec 16) : State :=
  match itemAt item with
  | some it => readAnswered s it
  | none => answerMgmt s .badItem 0

/-- READ_ITEM (R178). -/
def execReadItem (item : BitVec 16) (s : State) : Host.Outcome State Fault Refusal := unlessReset s (readItem s item)

/-- WRITE_ITEM by what the item number names (R179). -/
def writeItem (s : State) (item : BitVec 16) (v : Word) : State :=
  match itemAt item with
  | some (.staged f) => answerMgmt (setStaged s (setItem s.staged f v)) .done v
  | some .statusWord0 | some .statusWord1 | some .timeBase | some .alertPending | some (.fault _)
  | some (.balance _) | some (.classCounter ..) | some (.globalCounter _) | some (.mirror _) =>
      answerMgmt s .readOnly 0
  | none => answerMgmt s .badItem 0

/-- WRITE_ITEM (R179). -/
def execWriteItem (item : BitVec 16) (v : Word) (s : State) : Host.Outcome State Fault Refusal :=
  unlessReset s (writeItem s item v)

/-- STATUS: item number 0 or 1 chooses the word, any other answers BAD_ITEM (R193). -/
def statusCommand (s : State) (item : BitVec 16) : State :=
  if item.toNat = 0 then readAnswered s .statusWord0
  else if item.toNat = 1 then readAnswered s .statusWord1
  else answerMgmt s .badItem 0

/-- STATUS (R193). -/
def execStatus (item : BitVec 16) (s : State) : Host.Outcome State Fault Refusal := unlessReset s (statusCommand s item)

/-! ## COMMIT (R181 to R184) -/

/-- The staged set becomes active and the epoch advances (R183 steps 1 and 2). -/
def adoptStaged (s : State) : State := setEpoch (setActive s s.staged) (s.epoch + 1)

/-- Every balance is clamped to its new ceiling (R122). -/
def clampBalances (s : State) : State :=
  setBalances s (tabulate (fun k => min s.balances[k] (ceiling s.active k)))

/-- Steps 1 to 5 of a successful COMMIT (R183), and the responses and part state they bring about. -/
def commitStaged (s : State) : State :=
  conclude s
    (judgeAllTimeouts (judgePressure (judgeAllAged (judgeAllUrgency (clampBalances (adoptStaged s))))))

/-- A COMMIT that is taken: BAD_VALUE with the lowest failing item, or the staged set made active (R182, R183). -/
def validateAndCommit (s : State) : State :=
  match lowestFailure s.staged with
  | some n => answerMgmt s .badValue (BitVec.ofNat 32 n)
  | none => answerMgmt (commitStaged s) .done (BitVec.ofNat 32 (s.epoch + 1).toNat)

/-- COMMIT by the part state (R162, R181). -/
def commitPart (s : State) : State :=
  match s.part with
  | .restarting => answerMgmt s .busy 0
  | .running | .draining | .quiescent => validateAndCommit s

/-- COMMIT (R183). -/
def execCommit (s : State) : Host.Outcome State Fault Refusal := unlessReset s (commitPart s)

/-- DISCARD_STAGED (R186). -/
def execDiscardStaged (s : State) : Host.Outcome State Fault Refusal :=
  unlessReset s (answerMgmt (setStaged s s.active) .done 0)

/-! ## Faults, alerts and counters -/

/-- TAKE_FAULT on the list (R158, R190). -/
def takeFault (s : State) : State :=
  match s.faults with
  | [] => answerMgmt s .empty 0
  | r :: rest =>
      answerMgmt (setOverflow (setReadout (setFaults s rest) { record := some r, overflow := s.overflow }) 0)
        .done (BitVec.ofNat 32 rest.length)

/-- TAKE_FAULT (R158). -/
def execTakeFault (s : State) : Host.Outcome State Fault Refusal := unlessReset s (takeFault s)

/-- The edge causes that a value does not name stay; those it names are cleared (R191). -/
def ackCauses (c : EdgeCauses) (v : Word) : EdgeCauses :=
  { faultRecorded := c.faultRecorded && !v.getLsbD 0
    faultOverflow := c.faultOverflow && !v.getLsbD 1
    memTimeout := c.memTimeout && !v.getLsbD 2
    strayCompletion := c.strayCompletion && !v.getLsbD 3
    drained := c.drained && !v.getLsbD 4
    restarted := c.restarted && !v.getLsbD 5 }

/-- ACK_ALERT: the answer is the set of causes pending after the event (R191). -/
def ackAlert (s : State) (v : Word) : State :=
  let t := setCauses s (ackCauses s.causes v)
  answerMgmt t .done (pendingCauses t)

/-- ACK_ALERT (R191). -/
def execAckAlert (v : Word) (s : State) : Host.Outcome State Fault Refusal := unlessReset s (ackAlert s v)

/-- CLEAR_COUNTERS (R192). -/
def execClearCounters (s : State) : Host.Outcome State Fault Refusal :=
  unlessReset s (answerMgmt (setCounters s Counters.reset) .done 0)

/-! ## Frames that carry no known command -/

/-- SHORT_FRAME (R175): no command and no answer; the sticky flag is set. -/
def execShortFrame (s : State) : Host.Outcome State Fault Refusal := unlessReset s (setShortFrame s true)

/-- UNKNOWN_COMMAND (R176): BAD_ITEM, and nothing changes. -/
def execUnknownCommand (_code : Byte) (s : State) : Host.Outcome State Fault Refusal :=
  unlessReset s (answerMgmt s .badItem 0)

end Sys2Proof.Machine
end

