-- ==== Sys2Proof/Machine/MemoryPort.lean ====
section
/-! DEFINITION. The Memory Port's inputs: COMPLETION (R131 to R135, R138, R139), HOLD (R141) and
RESPONSE_TIMEOUT (R136). -/

namespace Sys2Proof.Machine

/-- The outcome a completion's status and data signals give (R126, R132). -/
def completionOutcome (st : MemStatus) (line : LineData) : OpOutcome :=
  match st with
  | .ok => .ok line
  | .fault => .fault

/-- A stray completion is discarded, counted and raises STRAY_COMPLETION (R139). -/
def strayCompletion (s : State) : State := raiseStrayCompletion (countStray s)

/-- A late completion is discarded: its tag becomes FREE and LATE_COMPLETIONS rises (R138). -/
def lateCompletion (s : State) (t : TagId) : State := countLate (setTag s t .free)

/-- A completion of an OUTSTANDING op: its source is resolved, then the tag is FREE (R131). -/
def endOp (s : State) (t : TagId) (op : OutstandingOp) (o : OpOutcome) : State :=
  conclude s (setTag (resolveSource s op.source o) t .free)

/-- A completion with a tag value below 24, by the state of its record. -/
def completeTag (s : State) (t : TagId) (o : OpOutcome) : State :=
  match s.tags[t] with
  | .outstanding op => endOp s t op o
  | .quarantined => lateCompletion s t
  | .free => strayCompletion s

/-- A completion arriving on the memory completion group (R131, R138, R139). -/
def complete (s : State) (tag : Nat) (o : OpOutcome) : State :=
  if h : tag < 24 then completeTag s ⟨tag, h⟩ o else strayCompletion s

/-- COMPLETION (R131). While RESET is asserted it is discarded without count or alert (R173). -/
def execCompletion (tag : Nat) (st : MemStatus) (line : LineData) (s : State) : Host.Outcome State Fault Refusal :=
  unlessReset s (complete s tag (completionOutcome st line))

/-- HOLD (R141): an input level, which the next choice reads. -/
def execHold (level : Bool) (s : State) : Host.Outcome State Fault Refusal := .next (setHoldLine s level)

/-- RESPONSE_TIMEOUT (R136): the judgement of one op, made apart from a step (log 6). -/
def execResponseTimeout (t : TagId) (s : State) : Host.Outcome State Fault Refusal :=
  unlessReset s (conclude s (judgeTimeout s t))

end Sys2Proof.Machine
end

