-- ==== Sys2Proof/Machine/TimeBase.lean ====
section
/-! DEFINITION. The time base and the events that time brings: TIME_BASE_STEP (R195), REFILL_EXPIRY (R107),
AGED (R93) and URGENT_EPISODE (R110). R195 makes a step and all its judgements one event, so TIME_BASE_STEP
makes them all; the other three are the same judgements taken on their own (log 6). -/

namespace Sys2Proof.Machine

/-- A live slot's age one step later, stopping at 65 535 (R46). -/
def agedSlot (x : Slot) : Slot :=
  if slotLive x then { x with age := min (x.age + 1) Config.ageLimit } else x

/-- The count advances, the ages of live slots and the refill count rise, and the active refill period comes into
force (R46, R106, R122, R195). -/
def advanceTime (s : State) : State :=
  setPeriodInForce
    (setRefillCount (setSlots (setTimeBase s (s.timeBase + 1)) (tabulate (fun i => agedSlot s.slots[i])))
      (s.refillCount + 1))
    s.active.refillPeriod

/-- One step of the time base: the count advances and the judgements of R195 are made against the new value,
AGED before the timeouts (R94). -/
def timeStep (s : State) : State :=
  conclude s (judgeAllTimeouts (judgeAllAged (judgeAllUrgency (judgeRefill (advanceTime s)))))

/-- TIME_BASE_STEP (R195). While RESET is asserted the count stays at 0 and no refill expires (R173). -/
def execTimeBaseStep (s : State) : Host.Outcome State Fault Refusal := unlessReset s (timeStep s)

/-- REFILL_EXPIRY (R107): the period expires where the refill count equals or exceeds the one that the last step
took; a period that a COMMIT has lowered since waits for the next step (R106). -/
def execRefillExpiry (s : State) : Host.Outcome State Fault Refusal := unlessReset s (judgeRefill s)

/-- AGED (R93): an OPEN or DRAIN_PENDING entry at or beyond the merge hold limit takes AGED. -/
def execAged (e : EntryId) (s : State) : Host.Outcome State Fault Refusal := unlessReset s (judgeAged s e)

/-- URGENT_EPISODE (R110): the class's urgency flag is judged. -/
def execUrgentEpisode (c : ClassId) (s : State) : Host.Outcome State Fault Refusal :=
  unlessReset s (judgeUrgency s c)

end Sys2Proof.Machine
end

