-- ==== Sys2Proof/Machine/Dispatch.lean ====
section
/-! DEFINITION. One arm for each command. -/

namespace Sys2Proof.Machine

def exec (i : Instr) (s : State) : Host.Outcome State Fault Refusal :=
  match i with
  | .presentation r => Sys2Proof.Machine.execPresentation r s
  | .delivery => Sys2Proof.Machine.execDelivery s
  | .grant => Sys2Proof.Machine.execGrant s
  | .drainGrant => Sys2Proof.Machine.execDrainGrant s
  | .completion tag st line => Sys2Proof.Machine.execCompletion tag st line s
  | .hold level => Sys2Proof.Machine.execHold level s
  | .timeBaseStep => Sys2Proof.Machine.execTimeBaseStep s
  | .refillExpiry => Sys2Proof.Machine.execRefillExpiry s
  | .aged e => Sys2Proof.Machine.execAged e s
  | .urgentEpisode c => Sys2Proof.Machine.execUrgentEpisode c s
  | .responseTimeout t => Sys2Proof.Machine.execResponseTimeout t s
  | .hardReset => Sys2Proof.Machine.execHardReset s
  | .resetDeassert => Sys2Proof.Machine.execResetDeassert s
  | .shortFrame => Sys2Proof.Machine.execShortFrame s
  | .unknownCommand code => Sys2Proof.Machine.execUnknownCommand code s
  | .readItem item => Sys2Proof.Machine.execReadItem item s
  | .writeItem item value => Sys2Proof.Machine.execWriteItem item value s
  | .commit => Sys2Proof.Machine.execCommit s
  | .discardStaged => Sys2Proof.Machine.execDiscardStaged s
  | .drain => Sys2Proof.Machine.execDrain s
  | .resume => Sys2Proof.Machine.execResume s
  | .restart => Sys2Proof.Machine.execRestart s
  | .takeFault => Sys2Proof.Machine.execTakeFault s
  | .ackAlert value => Sys2Proof.Machine.execAckAlert value s
  | .clearCounters => Sys2Proof.Machine.execClearCounters s
  | .status item => Sys2Proof.Machine.execStatus item s

end Sys2Proof.Machine
end

