-- ==== Sys2Proof/Safety.lean ====
section
/-! DEFINITION. What a safe state of the WD-640 is, in the terms the statements use: the staged items that fail
validation (R181), the checks a presentation passes or fails (R7), what a slot keeps while it is live (R32), the
empty conditions (R164), the effective classes of a line (R68), and the laws the manual states of the whole part
(R12, R15, R45, R47, R57, R76, R83, R84, R94, R109, R157, R164, R165, R168). -/

namespace Sys2Proof.Machine

/-! ## Validation (R181), item by item -/

/-- An attribute item is outside its range. -/
def attrFails (a : WindowAttrs) : AttrField → Prop
  | .access => 0xFF < a.access.toNat
  | .mode => 2 < a.mode.toNat
  | .forwarding => 1 < a.forwarding.toNat
  | .policy => 2 < a.policy.toNat
  | .classValue => 5 < a.classValue.toNat
  | .faultPolicy => 1 < a.faultPolicy.toNat

/-- The reservations of the classes below `k`, added up. -/
def reservedBelow (c : ConfigSet) (k : Nat) : Nat :=
  ((List.finRange 6).map (fun j => if j.val < k then reservation c j else 0)).sum

/-- A check of R181 fails and names the item. -/
def ItemFails (c : ConfigSet) : StagedItem → Prop
  | .initiatorEnabled i => 1 < c.initiators[i].enabled.toNat
  | .initiatorGroup i => 3 < c.initiators[i].group.toNat
  | .classMap g u => 5 < c.classMap[g][u].toNat
  | .windowRange w .enabled => 1 < c.windows[w].enabled.toNat
  | .windowRange w .baseHi => 3 < c.windows[w].baseHi.toNat
  | .windowRange _ .baseLo => False
  | .windowRange w .limitHi => 3 < c.windows[w].limitHi.toNat
  | .windowRange w .limitLo =>
      lineFromItems c.windows[w].limitHi c.windows[w].limitLo < lineFromItems c.windows[w].baseHi c.windows[w].baseLo
  | .windowAttr w f => attrFails c.windows[w].attrs f
  | .dfltEnabled => 1 < c.dfltWindow.enabled.toNat
  | .dfltAttr f => attrFails c.dfltWindow.attrs f
  | .cls k .reservation =>
      8 < reservation c k ∨ cap c k < reservation c k ∨ (reservedBelow c k ≤ 40 ∧ 40 < reservedBelow c (k + 1 : Nat))
  | .cls k .cap => cap c k = 0 ∨ 48 < cap c k
  | .cls k .metered => 1 < c.classes[k].metered.toNat
  | .cls k .ceiling => ceiling c k < 64 ∨ 1048575 < ceiling c k
  | .cls k .refill => 65535 < refill c k
  | .cls k .hardCap => 1 < c.classes[k].hardCap.toNat
  | .cls k .latencyLimit => 65535 < latencyLimit c k
  | .refillPeriod => c.refillPeriod.toNat = 0 ∨ 4095 < c.refillPeriod.toNat
  | .responseTimeout => c.responseTimeout.toNat < 16 ∨ 65535 < c.responseTimeout.toNat
  | .holdLimit => c.holdLimit.toNat = 0 ∨ 4095 < c.holdLimit.toNat
  | .mergeReserve => 8 < c.mergeReserve.toNat
  | .alertMask => 0x7F < c.alertMask.toNat

/-! ## The checks of R7, from the request's fields and the item values -/

/-- The record is well formed (R5). -/
def WellShaped : Request → Prop
  | .read _ _ address length _ => 1 ≤ length ∧ address.toNat % 64 + length ≤ 64
  | .write _ _ address length _ strobes _ =>
      1 ≤ length ∧ address.toNat % 64 + length ≤ 64 ∧ ∃ n < length, strobes[n]? = some true
  | .fence .. => True
  | .other .. => False

/-- The READ or WRITE that a record carries: line address, offset, written lanes and data area (R1, R38). -/
def Carries (r : Request) (a : AccessReq) : Prop :=
  match r with
  | .read i g address length u =>
      a.initiator = i ∧ a.tag = g ∧ a.kind = .read ∧ a.line.toNat = address.toNat / 64 ∧
        a.offset.val = address.toNat % 64 ∧ a.length = length ∧ a.urgency = u ∧
        ∀ l : Lane, a.lanes[l] = false ∧ a.data[l] = 0
  | .write i g address length u strobes data =>
      a.initiator = i ∧ a.tag = g ∧ a.kind = .write ∧ a.line.toNat = address.toNat / 64 ∧
        a.offset.val = address.toNat % 64 ∧ a.length = length ∧ a.urgency = u ∧
        ∀ l : Lane,
          (a.lanes[l] = true ↔ ∃ n < length, l.val = address.toNat % 64 + n ∧ strobes[n]? = some true) ∧
          a.data[l] = if a.lanes[l] then data.getD (l.val - address.toNat % 64) 0 else 0
  | .fence .. => False
  | .other .. => False

/-- A window covers a line: enabled, and base ≤ line ≤ limit (R23), each a 34-bit number in two items (R194). -/
def Covers (w : WindowItems) (a : LineAddr) : Prop :=
  w.enabled = 1 ∧ w.baseHi.toNat % 4 * 2 ^ 32 + w.baseLo.toNat ≤ a.toNat ∧
    a.toNat ≤ w.limitHi.toNat % 4 * 2 ^ 32 + w.limitLo.toNat

/-- The lookup finds the window: the lowest-numbered that covers the line, else the enabled default window (R24). -/
def CoveredBy (c : ConfigSet) (a : LineAddr) : WindowIndex → Prop
  | .window w => Covers c.windows[w] a ∧ ∀ v < w, ¬ Covers c.windows[v] a
  | .dflt => (∀ v : WindowId, ¬ Covers c.windows[v] a) ∧ c.dfltWindow.enabled = 1

/-- The lookup finds nothing (R24, R25). -/
def NotCovered (c : ConfigSet) (a : LineAddr) : Prop :=
  (∀ v : WindowId, ¬ Covers c.windows[v] a) ∧ c.dfltWindow.enabled ≠ 1

/-- The window's access item allows the kind to the group: bit 2g for a READ, bit 2g + 1 for a WRITE (R26, R194). -/
def Allows (x : WindowAttrs) (group : Word) : Access → Prop
  | .read => x.access.getLsbD (2 * (group.toNat % 4)) = true
  | .write => x.access.getLsbD (2 * (group.toNat % 4) + 1) = true

/-- The first check of steps 1 to 5 that fails gives the status. -/
def FailsFirst (s : State) (r : Request) (st : Status) : Prop :=
  (¬ WellShaped r ∧ st = .errShape) ∨
  (WellShaped r ∧
    ((s.active.initiators[initiatorOf r].enabled ≠ 1 ∧ st = .errDenied) ∨
     (s.active.initiators[initiatorOf r].enabled = 1 ∧
       ((s.tagTable[initiatorOf r][tagOf r] = true ∧ st = .errTag) ∨
        (s.tagTable[initiatorOf r][tagOf r] = false ∧
          ∃ a, Carries r a ∧
            ((NotCovered s.active a.line ∧ st = .errDecode) ∨
             (∃ w, CoveredBy s.active a.line w ∧
               ¬ Allows (windowAttrs s.active w) s.active.initiators[a.initiator].group a.kind ∧
               st = .errDenied)))))))

/-- Steps 1 to 3 pass. -/
def PassesFirstChecks (s : State) (r : Request) : Prop :=
  WellShaped r ∧ s.active.initiators[initiatorOf r].enabled = 1 ∧ s.tagTable[initiatorOf r][tagOf r] = false

/-- Steps 1 to 5 pass for a READ or WRITE, covered by window `w`. -/
def PassesChecks (s : State) (r : Request) (a : AccessReq) (w : WindowIndex) : Prop :=
  PassesFirstChecks s r ∧ Carries r a ∧ CoveredBy s.active a.line w ∧
    Allows (windowAttrs s.active w) s.active.initiators[a.initiator].group a.kind

/-- The acceptance test of R51 for class `k`. -/
def HasRoom (s : State) (k : ClassId) : Prop :=
  1 ≤ freeSlots s ∧ occupancy s k < cap s.active k ∧
    (occupancy s k < reservation s.active k ∨
      (((List.finRange 6).filter (fun j => j ≠ k)).map (fun j => reservation s.active j - occupancy s j)).sum
        < freeSlots s)

/-! ## What a live slot keeps (R32, R36) -/

/-- The fields written at acceptance that stay as written until the slot is FREE. -/
def SameCapture (x y : Slot) : Prop :=
  y.initiator = x.initiator ∧ y.tag = x.tag ∧ y.kind = x.kind ∧ y.line = x.line ∧ y.offset = x.offset ∧
    y.length = x.length ∧ y.lanes = x.lanes ∧ y.cls = x.cls ∧ y.window = x.window ∧ y.mode = x.mode ∧
    y.forwarding = x.forwarding ∧ y.policy = x.policy ∧ y.epoch = x.epoch ∧ y.arrivalTime = x.arrivalTime

/-! ## The empty conditions (R164) and the effective classes of a line (R68) -/

/-- No slot, fence record or merge entry is held, no op is OUTSTANDING and the Response Queue is empty (R164). -/
def NothingHeld (s : State) : Prop :=
  (∀ i : SlotId, s.slots[i].state = .free) ∧ (∀ k : FenceId, s.fences[k].state = .free) ∧
  (∀ e : EntryId, s.entries[e].state = .free) ∧ (∀ (t : TagId) (op : OutstandingOp), s.tags[t] ≠ .outstanding op) ∧
  s.responses = []

/-- Each slot of the line's list holds the largest of its own class and the effective classes of the younger slots that
it blocks, which are those of which either is a WRITE (R67, R68). -/
def EffectiveOn (s : State) (a : LineAddr) : Prop :=
  ∀ older x younger, lineList s a = older ++ x :: younger →
    let blocked (b : SlotId) : Prop := b ∈ younger ∧ (s.slots[x].kind = .write ∨ s.slots[b].kind = .write)
    ∃ c, s.slots[x].effCls = some c ∧ s.slots[x].cls ≤ c ∧
      (∀ b, blocked b → ∃ d ≤ c, s.slots[b].effCls = some d) ∧
      (c = s.slots[x].cls ∨ ∃ b, blocked b ∧ s.slots[b].effCls = some c)

/-! ## The laws -/

/-- The law of credit balances (R109), with the floor of a legal ceiling (R181). -/
def CreditLaw (s : State) : Prop :=
  ∀ k : ClassId, 64 ≤ ceiling s.active k ∧ -64 ≤ s.balances[k] ∧ s.balances[k] ≤ ceiling s.active k

/-- The active set holds no value that validation refuses (R177), and the refill count has not reached the period that
the last step took, which is within its range, so that the count is 0 to 4094 and no expiry is left to make between
steps (R104, R106). -/
def ConfigLaw (s : State) : Prop :=
  (∀ it, ¬ ItemFails s.active it) ∧ s.refillCount < s.periodInForce.toNat ∧ s.periodInForce.toNat ≤ 4095

/-- The law of nonempty entries (R84) with what R75 and R76 say of an entry's data and reasons; PRESSURE is held by one
entry at most (R94); a QUEUED WRITE has a written lane (R36). -/
def EntryLaw (s : State) : Prop :=
  (∀ e : EntryId, s.entries[e].state ≠ .free →
    lanesAny s.entries[e].valid = true ∧ (∃ i : InitiatorId, s.entries[e].contributors[i] = some .posted) ∧
    (s.entries[e].state = .opened → s.entries[e].reasons = []) ∧
    (s.entries[e].state = .drainPending → s.entries[e].reasons ≠ []) ∧
    (s.entries[e].demandTime.isSome = true ↔ ∃ r ∈ s.entries[e].reasons, demanded r = true)) ∧
  (∀ e e' : EntryId, s.entries[e].state ≠ .free → s.entries[e'].state ≠ .free → .pressure ∈ s.entries[e].reasons →
    .pressure ∈ s.entries[e'].reasons → e = e') ∧
  (∀ i : SlotId, s.slots[i].state = .queued → s.slots[i].kind = .write → lanesAny s.slots[i].lanes = true)

/-- The law of quiescence (R165); every HELD refusal record is referenced (R13). -/
def QuiescentLaw (s : State) : Prop :=
  (∀ k : RefusalId, s.refusals[k].isSome = true → Ref.refusal k ∈ s.responses) ∧
  (s.part = .quiescent →
    (∀ i : SlotId, s.slots[i].state = .free) ∧ (∀ k : FenceId, s.fences[k].state = .free) ∧
    (∀ k : RefusalId, s.refusals[k] = none) ∧ (∀ e : EntryId, s.entries[e].state = .free) ∧ s.responses = [] ∧
    (∀ t : TagId, s.tags[t] = .free ∨ s.tags[t] = .quarantined))

/-- The Deferred Fault List's bounds (R155, R157); a drop can have happened only with 8 records standing (R158). -/
def FaultListLaw (s : State) : Prop :=
  s.faults.length ≤ 8 ∧ s.overflow ≤ 65535 ∧ (s.overflow ≠ 0 → s.faults.length = 8)

/-- A DRAINING or RESTARTING part holds something (R164, R170); every entry that is OPEN or DRAIN_PENDING while the
part is DRAINING holds DRAIN_CMD (R95, R163); a RESTARTING part holds no candidate and no WAITING fence (R168). -/
def PartLaw (s : State) : Prop :=
  (s.part = .draining → emptyConditions s = false ∧
    ∀ e : EntryId, entryLive s.entries[e] = true → Reason.drainCmd ∈ s.entries[e].reasons) ∧
  (s.part = .restarting → emptyConditions s = false ∧
    (∀ i : SlotId, s.slots[i].state ≠ .queued ∧ s.slots[i].state ≠ .waitDrain) ∧
    (∀ e : EntryId, entryLive s.entries[e] = false) ∧ (∀ k : FenceId, s.fences[k].state ≠ .waiting))

/-- The law of one entry per line (R57, R60, R83) with the references it rests on: a line has one line entry at most, its
merge reference names exactly the entry that is not FREE and holds the line, a line entry holds a slot or a reference (R59),
a QUEUED slot stands in its line's list, and a drain's tag belongs to its DRAINING entry (R129). -/
def MergeLaw (s : State) : Prop :=
  (s.lines.map (·.line)).Nodup ∧
  (∀ e : EntryId, s.entries[e].state ≠ .free → mergeRef s s.entries[e].line = some e) ∧
  (∀ (a : LineAddr) (e : EntryId), mergeRef s a = some e → s.entries[e].state ≠ .free ∧ s.entries[e].line = a) ∧
  (∀ l ∈ s.lines, l.list ≠ [] ∨ l.mergeRef.isSome = true) ∧
  (∀ i : SlotId, s.slots[i].state = .queued → i ∈ lineList s s.slots[i].line) ∧
  (∀ (t : TagId) (op : OutstandingOp) (e : EntryId), s.tags[t] = .outstanding op → op.source = .entry e →
    s.entries[e].state = .draining ∧ s.entries[e].memTag = some t)

/-- The arrival list holds the live slots, each once (R45), with the references this rests on: a slot is delivered only
once it is DONE (R42), an op's slot holds its tag (R129), a waiting confirmation is WAIT_DRAIN on one entry (R41). The
Response Queue references, each once, exactly the DONE slots not yet delivered, the COMPLETED fences and the HELD refusal
records, each of which holds its status (R14, R15, R18). The order of the fences holds the held ones. -/
def StoreLaw (s : State) : Prop :=
  s.arrival.Nodup ∧ (∀ i : SlotId, i ∈ s.arrival ↔ s.slots[i].state ≠ .free) ∧
  (∀ i : SlotId, s.slots[i].state ≠ .free → s.slots[i].state ≠ .done → s.slots[i].delivered = false) ∧
  (∀ (t : TagId) (op : OutstandingOp) (i : SlotId), s.tags[t] = .outstanding op → op.source = .slot i →
    s.slots[i].memTag = some t ∧ (s.slots[i].state = .issued ∨ s.slots[i].state = .done)) ∧
  (∀ (e : EntryId) (i : SlotId), i ∈ s.entries[e].waiting →
    s.slots[i].state = .waitDrain ∧ ∀ e' : EntryId, i ∈ s.entries[e'].waiting → e' = e) ∧
  (∀ i : SlotId, Ref.slot i ∈ s.responses ↔ s.slots[i].state = .done ∧ s.slots[i].delivered = false) ∧
  s.responses.Nodup ∧
  (∀ k : FenceId, Ref.fence k ∈ s.responses ↔ s.fences[k].state = .completed) ∧
  (∀ k : RefusalId, Ref.refusal k ∈ s.responses ↔ s.refusals[k].isSome = true) ∧
  (∀ i : SlotId, s.slots[i].state = .done → s.slots[i].status.isSome = true) ∧
  (∀ k : FenceId, s.fences[k].state = .completed → s.fences[k].status.isSome = true) ∧
  s.fenceOrder.Nodup ∧ (∀ k : FenceId, k ∈ s.fenceOrder ↔ s.fences[k].state ≠ .free)

/-- Each class queue holds the QUEUED slots of its class and each line list those of its line, in arrival order (R47,
R57), and the slots of each line list hold the effective classes of R68, which no other slot holds. -/
def QueueLaw (s : State) : Prop :=
  (∀ k : ClassId, s.queues[k] =
    s.arrival.filter (fun i => decide (s.slots[i].state = .queued ∧ s.slots[i].cls = k))) ∧
  (s.lines.map (·.line)).Nodup ∧
  (∀ a : LineAddr, lineList s a =
    s.arrival.filter (fun i => decide (s.slots[i].state = .queued ∧ s.slots[i].line = a))) ∧
  (∀ a : LineAddr, EffectiveOn s a) ∧
  (∀ i : SlotId, s.slots[i].state ≠ .queued → s.slots[i].effCls = none)

/-- The law of tag uniqueness (R12): a tag is in the Tag Table exactly while a live slot whose response has not been
delivered or a held fence record holds it, and one of these at most does. -/
def TagLaw (s : State) : Prop :=
  ∀ (i : InitiatorId) (g : ReqTag),
    let slotHolds (j : SlotId) : Prop :=
      s.slots[j].state ≠ .free ∧ s.slots[j].delivered = false ∧ s.slots[j].initiator = i ∧ s.slots[j].tag = g
    let fenceHolds (k : FenceId) : Prop :=
      s.fences[k].state ≠ .free ∧ s.fences[k].initiator = i ∧ s.fences[k].tag = g
    (s.tagTable[i][g] = true ↔ (∃ j, slotHolds j) ∨ ∃ k, fenceHolds k) ∧
    (∀ j j', slotHolds j → slotHolds j' → j = j') ∧ (∀ k k', fenceHolds k → fenceHolds k' → k = k') ∧
    ∀ j k, ¬ (slotHolds j ∧ fenceHolds k)

end Sys2Proof.Machine
end

