-- ==== Sys2Proof/Certificates/Slice0/Obligations.lean ====
section
/-! DEFINITION. The statements about the WD-640, stated here and proved elsewhere. Each says in its docstring which
rule of the manual it formalises. A frame is written as `t = { s with f := t.f, … }`: every field that is not named is
unchanged. -/

open Sys2Proof Sys2Proof.Machine

/-! ## The machine -/

/-- One step takes the command at the front of the queue and runs it on the state with the queue's rest; on an empty
queue the block idles (the model's choice, log 1). -/
def Obligations.StepTakesTheFrontCommand : Prop :=
  (∀ (s : State) (c : Instr) (rest : List Instr), s.pending = c :: rest → step s = exec c { s with pending := rest }) ∧
  (∀ s : State, s.pending = [] → step s = .next s)

/-- Every command is taken in every state: none ends in a fault or a refusal, and none reaches the commands that wait.
R162 and R176 say so of the management commands; that no other row of the table stops is the model's (log 22), and that a
command leaves the queue, HARD_RESET included, is the model's (logs 1 and 3). -/
def Obligations.EveryCommandIsTaken : Prop :=
  ∀ (c : Instr) (s : State), ∃ t, exec c s = .next t ∧ t.pending = s.pending

/-! ## Reset (R172, R173) -/

/-- While RESET is asserted the part is held: no command but a HOLD level, another reset or the release changes
anything, no response is shown and ALERT is deasserted; after a hard reset the release begins from the reset state. -/
def Obligations.HeldWhileResetAsserted : Prop :=
  (∀ (c : Instr) (s : State), s.resetLine = true → c ≠ .hardReset → c ≠ .resetDeassert → (∀ l, c ≠ .hold l) →
    exec c s = .next s) ∧
  (∀ s : State, s.resetLine = true → shownResponse s = none ∧ alert s = false) ∧
  (∀ s : State, exec .resetDeassert s = .next { s with resetLine := false }) ∧
  (∀ s t : State, exec .hardReset s = .next t →
    exec .resetDeassert t = .next { State.reset with holdLine := s.holdLine, pending := s.pending })

/-- The reset value of a staged item (R194, the last column of its table). -/
def resetItem : StagedItem → Nat
  | .initiatorEnabled _ => 1
  | .initiatorGroup _ => 0
  | .classMap _ _ => 0
  | .windowRange _ _ => 0
  | .windowAttr _ .access => 0xFF
  | .windowAttr _ .mode => 2
  | .windowAttr _ _ => 0
  | .dfltEnabled => 1
  | .dfltAttr .access => 0xFF
  | .dfltAttr .mode => 2
  | .dfltAttr _ => 0
  | .cls _ .cap => 48
  | .cls _ .ceiling => 8192
  | .cls _ .refill => 512
  | .cls _ _ => 0
  | .refillPeriod => 32
  | .responseTimeout => 4096
  | .holdLimit => 128
  | .mergeReserve => 2
  | .alertMask => 0

/-- A hard reset leaves every block with the values of R172's table, whatever the part held. The period in force is the
reset refill period (log 6); the HOLD level and the commands that wait are kept (log 3). -/
def Obligations.HardResetState : Prop :=
  ∀ s : State, ∃ t, exec .hardReset s = .next t ∧ t.resetLine = true ∧ t.holdLine = s.holdLine ∧
    t.pending = s.pending ∧ t.part = .running ∧
    (∀ (i : InitiatorId) (g : ReqTag), t.tagTable[i][g] = false) ∧ (∀ k : RefusalId, t.refusals[k] = none) ∧
    (∀ i : SlotId, t.slots[i].state = .free ∧ t.slots[i].memTag = none ∧ t.slots[i].snapshot = none ∧
      t.slots[i].status = none) ∧
    (∀ k : ClassId, t.queues[k] = [] ∧ occupancy t k = 0 ∧ t.balances[k] = 8192 ∧ t.urgent[k] = false) ∧
    t.arrival = [] ∧ t.lines = [] ∧
    (∀ e : EntryId, t.entries[e].state = .free ∧ t.entries[e].reasons = [] ∧ t.entries[e].waiting = [] ∧
      t.entries[e].memTag = none) ∧
    t.refillCount = 0 ∧ t.periodInForce = 32 ∧ t.pointer = 0 ∧ (∀ τ : TagId, t.tags[τ] = .free) ∧
    (∀ k : FenceId, t.fences[k].state = .free ∧ t.fences[k].waitSlots = [] ∧ t.fences[k].waitFences = [] ∧
      t.fences[k].waitEntries = [] ∧ t.fences[k].faulted = false) ∧
    t.faults = [] ∧ t.overflow = 0 ∧ (∀ f, readoutValue t.readout f = 0) ∧ t.responses = [] ∧ shownResponse t = none ∧
    (∀ it, (itemValue t.staged it).toNat = resetItem it ∧ (itemValue t.active it).toNat = resetItem it) ∧
    t.epoch = 0 ∧ t.shortFrame = false ∧ t.timeBase = 0 ∧
    (∀ k x, classCounterValue t.counters.perClass[(k : ClassId)] x = 0) ∧ (∀ x, globalCounterValue t.counters x = 0) ∧
    pendingCauses t = 0 ∧ alert t = false

/-- The state after reset meets every law that is stated as kept by each step. -/
def Obligations.ResetMeetsTheLaws : Prop :=
  CreditLaw State.reset ∧ ConfigLaw State.reset ∧ EntryLaw State.reset ∧ QuiescentLaw State.reset ∧
  FaultListLaw State.reset ∧ PartLaw State.reset ∧ MergeLaw State.reset ∧ StoreLaw State.reset ∧
  QueueLaw State.reset ∧ TagLaw State.reset

/-! ## Frames and item numbers (R174, R194) -/

/-- The bits of a byte as a frame carries them, the most significant first (R174). -/
def bitsOfByte (b : Byte) : List Bool := (List.range 8).map (fun n => b.getLsbD (7 - n))

/-- A management command written as its frame is read back whole, whatever bytes follow the seventh; fewer than seven
bytes are a short frame; and every frame of seven bytes carries a well-formed command. The bits of a select are the bytes'
bits, the most significant of each byte first, and a byte left in the middle is discarded. The answer stands in bytes 8 to
12: the status code, then the answer value big-endian; every other byte on MDO is zero (R174, R175, R194). -/
def Obligations.FrameDecodesWhatItEncodes : Prop :=
  (∀ (c : Instr) (bytes more : List Byte), c.wellFormed = true → encodeFrame c = some bytes →
    bytes.length = 7 ∧ decodeFrame (bytes ++ more) = c) ∧
  (∀ bytes : List Byte, bytes.length < 7 → decodeFrame bytes = .shortFrame) ∧
  (∀ bytes : List Byte, 7 ≤ bytes.length → (decodeFrame bytes).wellFormed = true ∧
    (encodeFrame (decodeFrame bytes)).isSome = true) ∧
  (∀ (bytes : List Byte) (left : List Bool), left.length < 8 →
    decodeSelect (bytes.flatMap bitsOfByte ++ left) = decodeFrame bytes) ∧
  (∀ a : MgmtAnswer,
    (mdoByte a 7).toNat = (match a.status with
      | .done => 0x00 | .busy => 0x01 | .badItem => 0x02 | .badValue => 0x03 | .empty => 0x04 | .readOnly => 0x05) ∧
    (∀ n : Fin 4, (mdoByte a (8 + n)).toNat = a.value.toNat / 256 ^ (3 - n.val) % 256) ∧
    ∀ n : Nat, n < 7 ∨ 12 ≤ n → mdoByte a n = 0)

/-- A staged item has the number, and names the field of a configuration set. -/
def ItemIs (it : StagedItem) (n : Nat) (field : ConfigSet → Word) : Prop :=
  stagedNumber it = n ∧ ∀ c, itemValue c it = field c

/-- The staged items of R194's table, each with its number and its field; each has one number, in 0x1000 to 0x1504, and
its active mirror stands 0x4000 above it; the fault readout items are 0x0010 to 0x0017 in the table's order. -/
def Obligations.ItemNumbersRoundTrip : Prop :=
  (∀ it, stagedItemAt (stagedNumber it) = some it) ∧ (∀ n it, stagedItemAt n = some it → stagedNumber it = n) ∧
  (∀ it, 0x1000 ≤ stagedNumber it ∧ stagedNumber it ≤ 0x1504) ∧
  (∀ it, itemAt (BitVec.ofNat 16 (stagedNumber it)) = some (.staged it) ∧
    itemAt (BitVec.ofNat 16 (stagedNumber it + 0x4000)) = some (.mirror it)) ∧
  (∀ i : InitiatorId, ItemIs (.initiatorEnabled i) (0x1000 + 2 * i) (fun c => c.initiators[i].enabled) ∧
    ItemIs (.initiatorGroup i) (0x1001 + 2 * i) (fun c => c.initiators[i].group)) ∧
  (∀ (g : GroupId) (u : Urgency), ItemIs (.classMap g u) (0x1100 + 8 * g + u) (fun c => c.classMap[g][u])) ∧
  (∀ w : WindowId,
    ItemIs (.windowRange w .enabled) (0x1200 + 0x10 * w) (fun c => c.windows[w].enabled) ∧
    ItemIs (.windowRange w .baseHi) (0x1201 + 0x10 * w) (fun c => c.windows[w].baseHi) ∧
    ItemIs (.windowRange w .baseLo) (0x1202 + 0x10 * w) (fun c => c.windows[w].baseLo) ∧
    ItemIs (.windowRange w .limitHi) (0x1203 + 0x10 * w) (fun c => c.windows[w].limitHi) ∧
    ItemIs (.windowRange w .limitLo) (0x1204 + 0x10 * w) (fun c => c.windows[w].limitLo) ∧
    ItemIs (.windowAttr w .access) (0x1205 + 0x10 * w) (fun c => c.windows[w].attrs.access) ∧
    ItemIs (.windowAttr w .mode) (0x1206 + 0x10 * w) (fun c => c.windows[w].attrs.mode) ∧
    ItemIs (.windowAttr w .forwarding) (0x1207 + 0x10 * w) (fun c => c.windows[w].attrs.forwarding) ∧
    ItemIs (.windowAttr w .policy) (0x1208 + 0x10 * w) (fun c => c.windows[w].attrs.policy) ∧
    ItemIs (.windowAttr w .classValue) (0x1209 + 0x10 * w) (fun c => c.windows[w].attrs.classValue) ∧
    ItemIs (.windowAttr w .faultPolicy) (0x120A + 0x10 * w) (fun c => c.windows[w].attrs.faultPolicy)) ∧
  ItemIs .dfltEnabled 0x1300 (·.dfltWindow.enabled) ∧
  ItemIs (.dfltAttr .access) 0x1305 (·.dfltWindow.attrs.access) ∧
  ItemIs (.dfltAttr .mode) 0x1306 (·.dfltWindow.attrs.mode) ∧
  ItemIs (.dfltAttr .forwarding) 0x1307 (·.dfltWindow.attrs.forwarding) ∧
  ItemIs (.dfltAttr .policy) 0x1308 (·.dfltWindow.attrs.policy) ∧
  ItemIs (.dfltAttr .classValue) 0x1309 (·.dfltWindow.attrs.classValue) ∧
  ItemIs (.dfltAttr .faultPolicy) 0x130A (·.dfltWindow.attrs.faultPolicy) ∧
  (∀ k : ClassId,
    ItemIs (.cls k .reservation) (0x1400 + 0x10 * k) (fun c => c.classes[k].reservation) ∧
    ItemIs (.cls k .cap) (0x1401 + 0x10 * k) (fun c => c.classes[k].cap) ∧
    ItemIs (.cls k .metered) (0x1402 + 0x10 * k) (fun c => c.classes[k].metered) ∧
    ItemIs (.cls k .ceiling) (0x1403 + 0x10 * k) (fun c => c.classes[k].ceiling) ∧
    ItemIs (.cls k .refill) (0x1404 + 0x10 * k) (fun c => c.classes[k].refill) ∧
    ItemIs (.cls k .hardCap) (0x1405 + 0x10 * k) (fun c => c.classes[k].hardCap) ∧
    ItemIs (.cls k .latencyLimit) (0x1406 + 0x10 * k) (fun c => c.classes[k].latencyLimit)) ∧
  ItemIs .refillPeriod 0x1500 (·.refillPeriod) ∧ ItemIs .responseTimeout 0x1501 (·.responseTimeout) ∧
  ItemIs .holdLimit 0x1502 (·.holdLimit) ∧ ItemIs .mergeReserve 0x1503 (·.mergeReserve) ∧
  ItemIs .alertMask 0x1504 (·.alertMask) ∧
  [0, 1, 2, 3, 4, 5, 6, 7].map readoutFieldAt = [some .info, some .lineHi, some .lineLo, some .lanesLo, some .lanesHi,
    some .contributors, some .time, some .overflow]

/-! ## What an event does in passing -/

/-- The part state after an event that began in `s` and ended in `t`, with the balances the event gave before the empty
conditions were judged: a DRAINING part that holds nothing is QUIESCENT and raises DRAINED (R164), a RESTARTING one
completes its restart (R170, R171), and any other part stays as it is. -/
def PartFollows (s t : State) (balances : Vector Int 6) : Prop :=
  let stays : Prop := t.part = s.part ∧ t.balances = balances ∧ t.pointer = s.pointer ∧
    t.causes.drained = s.causes.drained ∧ t.causes.restarted = s.causes.restarted
  match s.part with
  | .running | .quiescent => stays
  | .draining => (¬ NothingHeld t → stays) ∧ (NothingHeld t →
      t.part = .quiescent ∧ t.causes.drained = true ∧ t.causes.restarted = s.causes.restarted ∧
        t.balances = balances ∧ t.pointer = s.pointer)
  | .restarting => (¬ NothingHeld t → stays) ∧ (NothingHeld t →
      t.part = .running ∧ t.causes.restarted = true ∧ t.causes.drained = s.causes.drained ∧ t.pointer = 0 ∧
        ∀ k : ClassId, t.balances[k] = s.active.classes[k].ceiling.toNat)

/-- The records handed to the Deferred Fault List in order: each joins it and raises FAULT_RECORDED, or finds 8 records,
is dropped, counts in the overflow count and raises FAULT_OVERFLOW (R157). -/
def RecordsHanded (s t : State) (records : List FaultRecord) : Prop :=
  let room := 8 - s.faults.length
  t.faults = s.faults ++ records.take room ∧
  t.overflow = (if records.length ≤ room then s.overflow else min (s.overflow + (records.length - room)) 65535) ∧
  t.causes.faultRecorded = (s.causes.faultRecorded || decide (records ≠ [] ∧ 0 < room)) ∧
  t.causes.faultOverflow = (s.causes.faultOverflow || decide (room < records.length))

/-- The record of a merge entry's lost data (R98, R155, R156). -/
def entryLoss (kind : LossKind) (m : MergeEntry) (now : Time) : FaultRecord :=
  { kind, line := m.line, lanes := m.valid
    contributors := (List.finRange 32).filter (fun i => m.contributors[i].isSome), window := m.window
    epoch := m.epoch, time := now }

/-- The record of a posted direct write's lost data (R134, R155, R156). -/
def slotLoss (kind : LossKind) (x : Slot) (now : Time) : FaultRecord :=
  { kind, line := x.line, lanes := x.lanes, contributors := [x.initiator], window := x.window, epoch := x.epoch
    time := now }

/-- Fence records whose completion an event brings about, in the order in which they were accepted (R15). -/
def fencesCompleted (s t : State) : List Ref :=
  (s.fenceOrder.filter (fun k => t.fences[k].state == .completed && s.fences[k].state != .completed)).map .fence

/-- A wait set that holds a member loses it; the last member's leaving completes the fence, with FENCE_FAULTED if it is
marked and OK if not (R151, R152). -/
def LeavesWaitSets (member : FenceRecord → Prop) (rest : FenceRecord → FenceRecord) (before after : FenceRecord) :
    Prop :=
  (before.state = .waiting → member before →
    let left := rest before
    (¬ (left.waitSlots = [] ∧ left.waitFences = [] ∧ left.waitEntries = []) → after = left) ∧
    (left.waitSlots = [] → left.waitFences = [] → left.waitEntries = [] →
      after = { left with
        state := .completed, status := some (if before.faulted then .fenceFaulted else .ok) })) ∧
  (¬ (before.state = .waiting ∧ member before) → after = before)

/-- AGED judged for every entry: one at or beyond the merge hold limit takes it, where it takes reasons (R91, R93). -/
def agedEntries (limit : Nat) (now : Time) (es : Vector MergeEntry 16) : Vector MergeEntry 16 :=
  tabulate (fun e => if limit ≤ ageOf now es[e].firstMerge then withReason es[e] .aged now else es[e])

/-- PRESSURE judged: while the FREE entries are at most the reserve and no entry that is not FREE holds PRESSURE, the OPEN
entry of the greatest age, the lowest-numbered of equals, takes it, and no other entry changes (R94). -/
def pressured (reserve : Nat) (now : Time) (es : Vector MergeEntry 16) : Vector MergeEntry 16 :=
  let age (e : EntryId) : Nat := ageOf now es[e].firstMerge
  tabulate (fun e =>
    if (List.finRange 16).countP (fun d => es[d].state = .free) ≤ reserve ∧
        (∀ d : EntryId, es[d].state ≠ .free → .pressure ∉ es[d].reasons) ∧ es[e].state = .opened ∧
        (∀ d : EntryId, es[d].state = .opened → age d ≤ age e ∧ (age d = age e → e ≤ d))
    then withReason es[e] .pressure now else es[e])

/-- The ops, in ascending order of memory tag, that are at or beyond the limit (R136). -/
def opsDue (s : State) (limit : Nat) (now : Time) : List OutstandingOp :=
  (List.finRange 24).filterMap (fun τ =>
    match s.tags[τ] with
    | .outstanding op => if limit ≤ ageOf now op.issueTime then some op else none
    | .free | .quarantined => none)

/-- What the timeout of the ops in one event, in ascending order of memory tag, does with their sources, given the slots
and entries it finds (R99, R100, R136). An ISSUED slot is DONE with ERR_TIMEOUT or, if marked, ERR_ABORT; a posted direct
write loses its memory tag, its loss is recorded and the fences that hold it are marked, and it is FREE and leaves the wait
sets if its response has been delivered; an entry's waiting confirmations are DONE with ERR_TIMEOUT, its loss is recorded
and the fences of its posted contributors that hold it are marked, it is FREE and leaves the wait sets and its line's
reference, and PRESSURE is judged. TIMEOUTS rises by one for each and MEM_TIMEOUT is raised. The references join the
Response Queue, slots in arrival order, then fences (R15). -/
def TimeoutsTaken (ops : List OutstandingOp) (now : Time) (slots : Vector Slot 48) (entries : Vector MergeEntry 16)
    (balances : Vector Int 6) (s t : State) : Prop :=
  let drains : List EntryId := ops.filterMap (fun op =>
    match op.source with
    | .entry e => some e
    | .slot _ => none)
  let ended (i : SlotId) : Bool := ops.any (fun op => op.source == .slot i)
  let posted (i : SlotId) : Bool := ended i && slots[i].state == .done
  let freed (i : SlotId) : Bool := posted i && slots[i].delivered
  (∀ i : SlotId, t.slots[i] =
    if posted i then { slots[i] with memTag := none, state := if slots[i].delivered then .free else .done }
    else if ended i then { slots[i] with
      state := .done, status := some (if slots[i].abort then .errAbort else .errTimeout), memTag := none }
    else if ∃ e ∈ drains, i ∈ entries[e].waiting then { slots[i] with state := .done, status := some .errTimeout }
    else slots[i]) ∧
  t.entries = drains.foldl (fun es e => pressured t.active.mergeReserve.toNat now (put es e MergeEntry.free)) entries ∧
  (∀ e ∈ drains, mergeRef t entries[e].line = none ∧ lineList t entries[e].line = lineList s entries[e].line) ∧
  (∀ a, (∀ e ∈ drains, entries[e].line ≠ a) → findLine t a = findLine s a) ∧
  t.arrival = s.arrival.filter (fun i => !freed i) ∧
  RecordsHanded s t (ops.filterMap (fun op =>
    match op.source with
    | .slot i => if posted i then some (slotLoss .timeout slots[i] now) else none
    | .entry e => some (entryLoss .timeout entries[e] now))) ∧
  (∀ k : FenceId,
    let f := s.fences[k]
    let lost : Prop := (∃ i ∈ f.waitSlots, posted i = true) ∨
      ∃ e ∈ f.waitEntries, e ∈ drains ∧ entries[e].contributors[f.initiator] = some .posted
    let marked (g : FenceRecord) : Prop :=
      g = { f with faulted := g.faulted } ∧ (g.faulted = true ↔ f.faulted = true ∨ (f.state = .waiting ∧ lost))
    ∃ g, marked g ∧ LeavesWaitSets (fun f => (∃ i ∈ f.waitSlots, freed i = true) ∨ ∃ e ∈ f.waitEntries, e ∈ drains)
      (fun f => { f with
        waitSlots := f.waitSlots.filter (fun i => !freed i)
        waitEntries := f.waitEntries.filter (fun e => !drains.contains e) }) g t.fences[k]) ∧
  t.responses = s.responses ++
    (s.arrival.filter (fun i => t.slots[i].state == .done && s.slots[i].state != .done)).map .slot ++
    fencesCompleted s t ∧
  t.counters.timeouts = satAdd s.counters.timeouts ops.length ∧
  t.causes.memTimeout = (s.causes.memTimeout || !ops.isEmpty) ∧
  t.causes.strayCompletion = s.causes.strayCompletion ∧ PartFollows s t balances

/-- The counters after an event that judges urgency and times ops out: each class's urgency flag that becomes set counts one
episode, TIMEOUTS rises by the ops timed out, and every other counter stays (R111, R136, R200, R202). -/
def CountsJudged (s t : State) (timeouts : Nat) : Prop :=
  (∀ k : ClassId, t.counters.perClass[k] = { s.counters.perClass[k] with
    urgentEpisodes := satAdd s.counters.perClass[k].urgentEpisodes (if t.urgent[k] && !s.urgent[k] then 1 else 0) }) ∧
  t.counters = { s.counters with
    perClass := t.counters.perClass, timeouts := satAdd s.counters.timeouts timeouts }

/-! ## Management commands (chapter 10) -/

/-- The value a counter item of a class shows, by its offset (R194). -/
def classCounterItem (x : ClassCounters) : Nat → Word
  | 0 => x.accepted
  | 1 => x.bytesCharged
  | 2 => x.urgentEpisodes
  | 3 => x.promotions
  | _ => x.deferrals

/-- The value a global counter item shows, by its offset (R194). -/
def globalCounterItem (x : Counters) : Nat → Word
  | 0 => x.deferralsUnclassed
  | 1 => x.refusedShape
  | 2 => x.refusedDecode
  | 3 => x.refusedDenied
  | 4 => x.refusedTag
  | 5 => x.forwardedReads
  | 6 => x.overlayReads
  | 7 => x.mergedWrites
  | 8 => x.drainsIssued
  | 9 => x.timeouts
  | 10 => x.lateCompletions
  | _ => x.strayCompletions

/-- READ_ITEM answers DONE with the item's value and changes nothing but SHORT_FRAME at status word 0; a number that
names no item answers BAD_ITEM (R178, R194). -/
def Obligations.ReadItemReturnsTheItem : Prop :=
  ∀ s : State, s.resetLine = false →
    let reads (n : Nat) (v : Word) : Prop :=
      exec (.readItem (BitVec.ofNat 16 n)) s = .next { s with mgmt := some { status := .done, value := v } }
    exec (.readItem 0) s =
      .next { s with shortFrame := false, mgmt := some { status := .done, value := statusWord0 s } } ∧
    reads 1 (statusWord1 s) ∧ reads 4 s.timeBase ∧ reads 8 (pendingCauses s) ∧
    (∀ (f : Fin 8) (x : ReadoutField), readoutFieldAt f = some x → reads (0x10 + f) (readoutValue s.readout x)) ∧
    (∀ k : ClassId, reads (0x20 + k) (BitVec.ofInt 32 s.balances[k])) ∧
    (∀ (k : ClassId) (j : Fin 5), reads (0x100 + 16 * k + j) (classCounterItem s.counters.perClass[k] j)) ∧
    (∀ j : Fin 12, reads (0x180 + j) (globalCounterItem s.counters j)) ∧
    (∀ it, reads (stagedNumber it) (itemValue s.staged it)) ∧
    (∀ it, reads (stagedNumber it + 0x4000) (itemValue s.active it)) ∧
    (∀ n : BitVec 16,
      ¬ (n.toNat ≤ 1 ∨ n.toNat = 4 ∨ n.toNat = 8 ∨ (0x10 ≤ n.toNat ∧ n.toNat ≤ 0x17) ∨
        (0x20 ≤ n.toNat ∧ n.toNat ≤ 0x25) ∨ (∃ (k : ClassId) (j : Fin 5), n.toNat = 0x100 + 16 * k + j) ∨
        (0x180 ≤ n.toNat ∧ n.toNat ≤ 0x18B) ∨
        ∃ it, n.toNat = stagedNumber it ∨ n.toNat = stagedNumber it + 0x4000) →
      exec (.readItem n) s = .next { s with mgmt := some { status := .badItem, value := 0 } })

/-- WRITE_ITEM stores the value, all 32 bits, into the staged item it names and leaves every other item; an item that
is not staged answers READ_ONLY and a number that names none BAD_ITEM, with no effect (R177, R179). -/
def Obligations.WriteItemStoresTheValue : Prop :=
  ∀ (s : State) (v : Word), s.resetLine = false →
    (∀ it, ∃ t, exec (.writeItem (BitVec.ofNat 16 (stagedNumber it)) v) s = .next t ∧
      t = { s with staged := t.staged, mgmt := some { status := .done, value := v } } ∧
      itemValue t.staged it = v ∧ ∀ it', it' ≠ it → itemValue t.staged it' = itemValue s.staged it') ∧
    (∀ (n : BitVec 16) (x : Item), itemAt n = some x → (∀ it, x ≠ .staged it) →
      exec (.writeItem n v) s = .next { s with mgmt := some { status := .readOnly, value := 0 } }) ∧
    (∀ n : BitVec 16, itemAt n = none →
      exec (.writeItem n v) s = .next { s with mgmt := some { status := .badItem, value := 0 } })

/-- DISCARD_STAGED copies the active set over the staged set (R186) and CLEAR_COUNTERS sets every counter to 0 (R192);
each answers DONE and leaves the rest. -/
def Obligations.DiscardStagedAndClearCounters : Prop :=
  ∀ s : State, s.resetLine = false →
    exec .discardStaged s = .next { s with staged := s.active, mgmt := some { status := .done, value := 0 } } ∧
    ∃ t, exec .clearCounters s = .next t ∧
      t = { s with counters := t.counters, mgmt := some { status := .done, value := 0 } } ∧
      (∀ (k : ClassId) (j : Fin 5), classCounterItem t.counters.perClass[k] j = 0) ∧
      (∀ j : Fin 12, globalCounterItem t.counters j = 0)

/-- A COMMIT of a staged set that fails a check answers BAD_VALUE with the lowest item number that a failing check names,
and leaves the rest as it stands (R182); in RESTARTING a COMMIT answers BUSY with value zero (R162). -/
def Obligations.CommitRefused : Prop :=
  ∀ s : State, s.resetLine = false →
    (∀ it, s.part ≠ .restarting → ItemFails s.staged it →
      (∀ it', ItemFails s.staged it' → stagedNumber it ≤ stagedNumber it') →
      exec .commit s =
        .next { s with mgmt := some { status := .badValue, value := BitVec.ofNat 32 (stagedNumber it) } }) ∧
    (s.part = .restarting → exec .commit s = .next { s with mgmt := some { status := .busy, value := 0 } })

/-- A COMMIT whose staged set passes every check makes it active, advances the epoch, clamps the balances, judges the
urgency flags, AGED for every entry, then PRESSURE, then every response timeout with the resolution of its source, all
against the new set, and answers DONE with the new epoch; it reaches no captured field of a slot, and no counter but
URGENT_EPISODES and TIMEOUTS (R183, R122, R93, R94, R136, R200, R202). What the timeouts do with slots, entries and fences is stated for states that meet `MergeLaw` and `StoreLaw`. A
FREE entry's other fields are the model's (log 15). -/
def Obligations.CommitAdopts : Prop :=
  ∀ s : State, s.resetLine = false → s.part ≠ .restarting → (∀ it, ¬ ItemFails s.staged it) →
    ∃ t, exec .commit s = .next t ∧ t.active = s.staged ∧ t.staged = s.staged ∧ t.epoch = s.epoch + 1 ∧
      t.mgmt = some { status := .done, value := (s.epoch + 1).setWidth 32 } ∧
      (∀ k : ClassId, t.balances[k] = min s.balances[k] (ceiling s.staged k) ∧ t.urgent[k] = urgentNow t k) ∧
      CountsJudged s t (opsDue s s.staged.responseTimeout.toNat s.timeBase).length ∧
      (∀ e : EntryId, entryLive t.entries[e] = true →
        s.staged.holdLimit.toNat ≤ ageOf s.timeBase t.entries[e].firstMerge → Reason.aged ∈ t.entries[e].reasons) ∧
      (∀ (τ : TagId) (op : OutstandingOp), s.tags[τ] = .outstanding op →
        t.tags[τ] = if s.staged.responseTimeout.toNat ≤ ageOf s.timeBase op.issueTime then .quarantined
          else .outstanding op) ∧
      (∀ τ : TagId, isOutstanding s.tags[τ] = false → t.tags[τ] = s.tags[τ]) ∧
      (MergeLaw s → StoreLaw s →
        TimeoutsTaken (opsDue s s.staged.responseTimeout.toNat s.timeBase) s.timeBase s.slots
          (pressured s.staged.mergeReserve.toNat s.timeBase
            (agedEntries s.staged.holdLimit.toNat s.timeBase s.entries)) t.balances s t) ∧
      (∀ i : SlotId, SameCapture s.slots[i] t.slots[i]) ∧
      t = { s with
        active := t.active, epoch := t.epoch, balances := t.balances, urgent := t.urgent, entries := t.entries
        lines := t.lines, tags := t.tags, slots := t.slots, arrival := t.arrival, fences := t.fences
        faults := t.faults, overflow := t.overflow, causes := t.causes, counters := t.counters
        responses := t.responses, part := t.part, mgmt := t.mgmt }

/-- The fields of the fault readout items (R194). -/
def ReadoutShows (value : ReadoutField → Word) (r : FaultRecord) (overflow : Nat) : Prop :=
  (value .info).toNat % 4 = (match r.kind with | .memFault => 1 | .timeout => 2 | .discarded => 3) ∧
  (value .info).toNat / 256 % 32 = (match r.window with | .window w => w.val | .dflt => 16) ∧
  (value .info).toNat / 65536 = r.epoch.toNat ∧
  (value .lineHi).toNat * 2 ^ 32 + (value .lineLo).toNat = r.line.toNat ∧
  (∀ l : Lane, r.lanes[l] = if l.val < 32 then (value .lanesLo).getLsbD l.val else (value .lanesHi).getLsbD (l.val - 32)) ∧
  (∀ i : InitiatorId, (value .contributors).getLsbD i.val = true ↔ i ∈ r.contributors) ∧
  value .time = r.time ∧ (value .overflow).toNat = overflow

/-- TAKE_FAULT moves the oldest record and the overflow count into the readout items and answers the number of records
that remain; on an empty list it answers EMPTY and changes nothing (R158, R190). -/
def Obligations.TakeFaultMovesTheOldest : Prop :=
  ∀ s : State, s.resetLine = false →
    (s.faults = [] → exec .takeFault s = .next { s with mgmt := some { status := .empty, value := 0 } }) ∧
    (∀ r rest, s.faults = r :: rest → s.overflow ≤ 65535 →
      ∃ t, exec .takeFault s = .next t ∧ t.faults = rest ∧ t.overflow = 0 ∧
        ReadoutShows (readoutValue t.readout) r s.overflow ∧
        t.mgmt = some { status := .done, value := BitVec.ofNat 32 rest.length } ∧
        (∀ f : Fin 8, ∀ x, readoutFieldAt f = some x →
          exec (.readItem (BitVec.ofNat 16 (0x10 + f))) t =
            .next { t with mgmt := some { status := .done, value := readoutValue t.readout x } }) ∧
        t = { s with faults := t.faults, overflow := 0, readout := t.readout, mgmt := t.mgmt })

/-- The pending causes of a state in the cause layout (R194, R197, R198). -/
def CauseLayout (v : Word) (c : EdgeCauses) (exhausted : Bool) : Prop :=
  v.getLsbD 0 = c.faultRecorded ∧ v.getLsbD 1 = c.faultOverflow ∧ v.getLsbD 2 = c.memTimeout ∧
  v.getLsbD 3 = c.strayCompletion ∧ v.getLsbD 4 = c.drained ∧ v.getLsbD 5 = c.restarted ∧
  v.getLsbD 6 = exhausted ∧ ∀ n, 7 ≤ n → v.getLsbD n = false

/-- ACK_ALERT clears the edge causes its value names, leaves the others and TAGS_EXHAUSTED, and answers the causes pending
after it (R191); ALERT is asserted while a pending cause is enabled in the active mask (R199). -/
def Obligations.AckAlertClearsWhatItNames : Prop :=
  ∀ (s : State) (v : Word), s.resetLine = false →
    ∃ t, exec (.ackAlert v) s = .next t ∧ t = { s with causes := t.causes, mgmt := t.mgmt } ∧
      t.causes.faultRecorded = (s.causes.faultRecorded && !v.getLsbD 0) ∧
      t.causes.faultOverflow = (s.causes.faultOverflow && !v.getLsbD 1) ∧
      t.causes.memTimeout = (s.causes.memTimeout && !v.getLsbD 2) ∧
      t.causes.strayCompletion = (s.causes.strayCompletion && !v.getLsbD 3) ∧
      t.causes.drained = (s.causes.drained && !v.getLsbD 4) ∧
      t.causes.restarted = (s.causes.restarted && !v.getLsbD 5) ∧
      (∃ a, t.mgmt = some { status := .done, value := a } ∧
        CauseLayout a t.causes (decide (∀ τ : TagId, s.tags[τ] = .quarantined)) ∧
        (alert t = true ↔ ∃ n, a.getLsbD n = true ∧ s.active.alertMask.getLsbD n = true))

/-- STATUS answers the word its item number chooses, with the fields of R193 and R194; reading word 0 clears SHORT_FRAME
after its value is taken (R175); READ_ITEM of items 0 and 1 does the same; any other item number answers BAD_ITEM. The
oldest live epoch is the candidate farthest behind the active epoch, the active epoch where there is none (R185). -/
def Obligations.StatusReportsBothWords : Prop :=
  ∀ s : State, s.resetLine = false → FaultListLaw s →
    (∃ v, exec (.status 0) s = .next { s with shortFrame := false, mgmt := some { status := .done, value := v } } ∧
      v.toNat % 4 = (match s.part with | .running => 0 | .draining => 1 | .quiescent => 2 | .restarting => 3) ∧
      v.getLsbD 2 = s.shortFrame ∧ v.toNat / 16 % 16 = s.faults.length ∧ v.extractLsb' 8 8 = s.epoch ∧
      v.extractLsb' 16 8 = oldestLiveEpoch s ∧ v.toNat < 2 ^ 24) ∧
    (∃ v, exec (.status 1) s = .next { s with mgmt := some { status := .done, value := v } } ∧
      v.toNat = freeSlots s + 256 * freeEntries s + 65536 * freeTags s + 16777216 * quarantinedTags s) ∧
    exec (.status 0) s = exec (.readItem 0) s ∧ exec (.status 1) s = exec (.readItem 1) s ∧
    (∀ n : BitVec 16, 2 ≤ n.toNat →
      exec (.status n) s = .next { s with mgmt := some { status := .badItem, value := 0 } }) ∧
    (let behind (e : Epoch) : Nat := (s.epoch - e).toNat
     let candidate (e : Epoch) : Prop :=
       (∃ i rest, s.arrival = i :: rest ∧ e = s.slots[i].epoch) ∨
         ∃ k : FenceId, s.fences[k].state ≠ .free ∧ e = s.fences[k].epoch
     (candidate (oldestLiveEpoch s) ∨ oldestLiveEpoch s = s.epoch) ∧
       ∀ e, candidate e → behind e ≤ behind (oldestLiveEpoch s))

/-- A frame with fewer than seven bytes executes nothing and sets the sticky flag SHORT_FRAME (R175); a complete frame
with an unknown code answers BAD_ITEM and changes nothing (R176). -/
def Obligations.FramesWithoutACommand : Prop :=
  ∀ s : State, s.resetLine = false →
    exec .shortFrame s = .next { s with shortFrame := true } ∧
    ∀ code : Byte, exec (.unknownCommand code) s = .next { s with mgmt := some { status := .badItem, value := 0 } }

/-! ## The request port (chapters 1 to 4) -/

/-- A presentation whose first failing check of steps 1 to 5 gives a status is refused when a refusal record is FREE: the
record holds the initiator, tag, kind as presented and status, its reference joins the Response Queue, and the REFUSALS
count of that status rises; the Tag Table and every slot stay (R7, R10). The lowest-numbered FREE record is the model's
choice (log 4). -/
def Obligations.FailedCheckIsRefused : Prop :=
  ∀ (s : State) (r : Request) (st : Status) (k : RefusalId), s.resetLine = false → s.part = .running →
    FailsFirst s r st → s.refusals[k] = none → (∀ j < k, s.refusals[j].isSome = true) →
    ∃ t, exec (.presentation r) s = .next t ∧ t.answer = some .accept ∧
      t.refusals = put s.refusals k
        (some { initiator := initiatorOf r, tag := tagOf r, kind := kindOf r, status := st }) ∧
      t.responses = s.responses ++ [.refusal k] ∧
      t.counters.refusedShape = satAdd s.counters.refusedShape (if st = .errShape then 1 else 0) ∧
      t.counters.refusedDenied = satAdd s.counters.refusedDenied (if st = .errDenied then 1 else 0) ∧
      t.counters.refusedTag = satAdd s.counters.refusedTag (if st = .errTag then 1 else 0) ∧
      t.counters.refusedDecode = satAdd s.counters.refusedDecode (if st = .errDecode then 1 else 0) ∧
      t.counters = { s.counters with
        refusedShape := t.counters.refusedShape, refusedDenied := t.counters.refusedDenied
        refusedTag := t.counters.refusedTag, refusedDecode := t.counters.refusedDecode } ∧
      t = { s with
        refusals := t.refusals, responses := t.responses, counters := t.counters, answer := t.answer }

/-- A DEFER: the answer, and one count. -/
def deferredUnclassed (s : State) : State :=
  { s with
    answer := some .defer
    counters := { s.counters with deferralsUnclassed := satAdd s.counters.deferralsUnclassed 1 } }

/-- A DEFER counted against a class. -/
def deferredInClass (s : State) (k : ClassId) : State :=
  let x := s.counters.perClass[k]
  { s with
    answer := some .defer
    counters := { s.counters with
      perClass := put s.counters.perClass k { x with deferrals := satAdd x.deferrals 1 } } }

/-- When a presentation is DEFERred, and which counter rises: outside RUNNING (R6), a refusal due with no record FREE
(R10), a FENCE with no fence record FREE (R9), a READ or WRITE that the acceptance test turns away (R8, R51). Every DEFER
adds one to one deferral counter and leaves all else (R11). -/
def Obligations.PresentationDeferred : Prop :=
  ∀ (s : State) (r : Request), s.resetLine = false →
    (s.part ≠ .running → exec (.presentation r) s = .next (deferredUnclassed s)) ∧
    (∀ st, s.part = .running → FailsFirst s r st → (∀ k : RefusalId, s.refusals[k].isSome = true) →
      exec (.presentation r) s = .next (deferredUnclassed s)) ∧
    (s.part = .running → PassesFirstChecks s r → (∃ i g, r = .fence i g) → (∀ k : FenceId, s.fences[k].state ≠ .free) →
      exec (.presentation r) s = .next (deferredUnclassed s)) ∧
    (∀ a w, s.part = .running → PassesChecks s r a w → ¬ HasRoom s (requestClass s a w) →
      exec (.presentation r) s = .next (deferredInClass s (requestClass s a w))) ∧
    (∀ t, exec (.presentation r) s = .next t → t.answer = some .defer →
      t = deferredUnclassed s ∨ ∃ k, t = deferredInClass s k)

/-- The slot is of class `c` and went from an effective class equal to its own to one above it (R71). -/
def rises (s t : State) (c : ClassId) (x : SlotId) : Bool :=
  s.slots[x].cls == c && s.slots[x].effCls == some c &&
    (match t.slots[x].effCls with
      | some d => decide (c < d)
      | none => false)

/-- A READ or WRITE that passes every check and finds room is accepted: its tag is marked, the lowest-numbered FREE slot
takes its fields and the captures of the active set (write mode 0 MERGE, 1 POST, 2 CONFIRM; forwarding 0 ALLOWED; fault
policy 0 ERROR), and the slot joins its class queue, the arrival list and its line's list; ACCEPTED of its class rises. The
slots of its line hold the effective classes of R68, each rise from the own class counts in PROMOTIONS, and the line's
entry may only take STRICT_READ (R8, R32, R37, R58, R64, R69, R71). -/
def Obligations.AccessAccepted : Prop :=
  ∀ (s : State) (r : Request) (a : AccessReq) (w : WindowIndex) (i : SlotId), s.resetLine = false →
    s.part = .running → PassesChecks s r a w → HasRoom s (requestClass s a w) → s.slots[i].state = .free →
    (∀ j < i, s.slots[j].state ≠ .free) →
    let k := requestClass s a w
    let attrs := windowAttrs s.active w
    ∃ t, exec (.presentation r) s = .next t ∧ t.answer = some .accept ∧
      t.tagTable = put s.tagTable a.initiator (put s.tagTable[a.initiator] a.tag true) ∧
      t.slots[i] =
        { state := .queued, initiator := a.initiator, tag := a.tag, kind := a.kind, line := a.line, offset := a.offset
          length := a.length, lanes := a.lanes, data := a.data, snapshot := none, cls := k, effCls := some k
          window := w, mode := if attrs.mode = 0 then .merge else if attrs.mode = 1 then .post else .confirm
          forwarding := if attrs.forwarding = 0 then .allowed else .strict
          policy := if attrs.faultPolicy = 0 then .error else .poison, epoch := s.epoch, arrivalTime := s.timeBase
          age := 0, memTag := none, abort := false, status := none, delivered := false } ∧
      ((lineList s a.line).Nodup → i ∉ lineList s a.line → EffectiveOn t a.line ∧
        ∀ c : ClassId, t.counters.perClass[c].promotions =
          satAdd s.counters.perClass[c].promotions ((lineList s a.line).countP (rises s t c))) ∧
      (∀ j, j ≠ i → t.slots[j] = { s.slots[j] with effCls := t.slots[j].effCls }) ∧
      (∀ j, j ≠ i → j ∉ lineList s a.line → t.slots[j] = s.slots[j]) ∧
      t.queues = put s.queues k (s.queues[k] ++ [i]) ∧ t.arrival = s.arrival ++ [i] ∧
      lineList t a.line = lineList s a.line ++ [i] ∧ mergeRef t a.line = mergeRef s a.line ∧
      (∀ b, b ≠ a.line → findLine t b = findLine s b) ∧
      (∀ e, t.entries[e] =
        if mergeRef s a.line = some e ∧ (leadingReads t a.line).any (fun j => t.slots[j].forwarding == .strict) = true
        then withReason s.entries[e] .strictRead s.timeBase else s.entries[e]) ∧
      t.counters.perClass[k].accepted = satAdd s.counters.perClass[k].accepted 1 ∧
      (∀ k' : ClassId, t.counters.perClass[k'] = { s.counters.perClass[k'] with
        accepted := t.counters.perClass[k'].accepted, promotions := t.counters.perClass[k'].promotions } ∧
        (k' ≠ k → t.counters.perClass[k'].accepted = s.counters.perClass[k'].accepted)) ∧
      t.counters = { s.counters with perClass := t.counters.perClass } ∧
      t = { s with
        tagTable := t.tagTable, slots := t.slots, queues := t.queues, arrival := t.arrival, lines := t.lines
        entries := t.entries, counters := t.counters, answer := t.answer }

/-- A FENCE that passes steps 2 and 3 fills the lowest-numbered FREE record, captures its initiator's slots, fences and
entries as its wait set, demands the drain of the captured entries, and completes at once with OK if it waits for
nothing (R9, R147 to R149). -/
def Obligations.FenceAccepted : Prop :=
  ∀ (s : State) (i : InitiatorId) (g : ReqTag) (k : FenceId), s.resetLine = false → s.part = .running →
    s.active.initiators[i].enabled = 1 → s.tagTable[i][g] = false → s.fences[k].state = .free →
    (∀ j < k, s.fences[j].state ≠ .free) →
    ∃ t, exec (.presentation (.fence i g)) s = .next t ∧ t.answer = some .accept ∧
      t.tagTable = put s.tagTable i (put s.tagTable[i] g true) ∧
      (∀ j : SlotId, j ∈ t.fences[k].waitSlots ↔ s.slots[j].state ≠ .free ∧ s.slots[j].initiator = i) ∧
      (∀ j : FenceId, j ∈ t.fences[k].waitFences ↔ s.fences[j].state ≠ .free ∧ s.fences[j].initiator = i) ∧
      (∀ e : EntryId, e ∈ t.fences[k].waitEntries ↔
        s.entries[e].state ≠ .free ∧ s.entries[e].contributors[i].isSome = true) ∧
      (let waits := ¬ (t.fences[k].waitSlots = [] ∧ t.fences[k].waitFences = [] ∧ t.fences[k].waitEntries = [])
       (waits → t.fences[k].state = .waiting ∧ t.fences[k].status = none ∧ t.responses = s.responses) ∧
       (¬ waits → t.fences[k].state = .completed ∧ t.fences[k].status = some .ok ∧
         ∃ added, t.responses = s.responses ++ added ∧ ∀ ref, ref ∈ added ↔ ref = .fence k)) ∧
      t.fences[k].initiator = i ∧ t.fences[k].tag = g ∧ t.fences[k].acceptTime = s.timeBase ∧
      t.fences[k].epoch = s.epoch ∧ t.fences[k].faulted = false ∧ (∀ j, j ≠ k → t.fences[j] = s.fences[j]) ∧
      t.fenceOrder = s.fenceOrder ++ [k] ∧
      (∀ e : EntryId, t.entries[e] =
        if e ∈ t.fences[k].waitEntries then withReason s.entries[e] .fence s.timeBase else s.entries[e]) ∧
      t = { s with
        tagTable := t.tagTable, fences := t.fences, fenceOrder := t.fenceOrder, entries := t.entries
        responses := t.responses, answer := t.answer }

/-- Lookup gives the lowest-numbered enabled window that covers the line, else the default window if it is enabled, else
nothing (R24, R25); the class of a request is then the mapped class kept, replaced or raised (R30, R31). -/
def Obligations.LookupAndClass : Prop :=
  (∀ (c : ConfigSet) (a : LineAddr),
    (∀ w : WindowId, coveringWindow c a = some (.window w) ↔
      Covers c.windows[w] a ∧ ∀ v < w, ¬ Covers c.windows[v] a) ∧
    (coveringWindow c a = some .dflt ↔ (∀ v : WindowId, ¬ Covers c.windows[v] a) ∧ c.dfltWindow.enabled = 1) ∧
    (coveringWindow c a = none ↔ (∀ v : WindowId, ¬ Covers c.windows[v] a) ∧ c.dfltWindow.enabled ≠ 1)) ∧
  (∀ (s : State) (a : AccessReq) (w : WindowIndex), ConfigLaw s →
    let g := initiatorGroup s.active a.initiator
    (g : Nat) = s.active.initiators[a.initiator].group.toNat ∧
    let mapped := s.active.classMap[g][a.urgency].toNat
    let x := windowAttrs s.active w
    (x.policy = 0 → (requestClass s a w : Nat) = mapped) ∧
    (x.policy = 1 → (requestClass s a w : Nat) = x.classValue.toNat) ∧
    (x.policy = 2 → (requestClass s a w : Nat) = max mapped x.classValue.toNat))

/-- The effective classes of a line: the largest of the slot's own class and the effective classes of the younger slots it
blocks, a slot blocking a younger one when either is a WRITE (R67, R68); recomputing a line sets them, and a rise from
the own class counts in PROMOTIONS of that class (R71). -/
def Obligations.EffectiveClassIsTheLargestBlocked : Prop :=
  ∀ (s : State) (a : LineAddr) (t : State), (lineList s a).Nodup → t = recompute s a →
    ∃ eff : SlotId → ClassId,
      (∀ older x younger, lineList s a = older ++ x :: younger →
        let blocked (b : SlotId) : Prop := b ∈ younger ∧ (s.slots[x].kind = .write ∨ s.slots[b].kind = .write)
        t.slots[x] = { s.slots[x] with effCls := some (eff x) } ∧ s.slots[x].cls ≤ eff x ∧
        (∀ b, blocked b → eff b ≤ eff x) ∧ (eff x = s.slots[x].cls ∨ ∃ b, blocked b ∧ eff x = eff b)) ∧
      (∀ x, x ∉ lineList s a → t.slots[x] = s.slots[x]) ∧
      (∀ k : ClassId, t.counters.perClass[k].promotions = satAdd s.counters.perClass[k].promotions
        ((lineList s a).countP (fun x =>
          s.slots[x].cls == k && s.slots[x].effCls == some s.slots[x].cls && decide (s.slots[x].cls < eff x)))) ∧
      t = { s with slots := t.slots, counters := t.counters }

/-! ## Delivery (R14 to R17) -/

/-- A delivery of a slot's response: the response shown carries the slot's fields and, for a READ answered OK or
POISONED, its requested lanes; the tag leaves the Tag Table; a slot with no memory tag becomes FREE and leaves the arrival
list and every wait set, one with a memory tag stays with its delivered flag set (R14, R16, R17, R42). -/
def Obligations.SlotResponseDelivered : Prop :=
  ∀ (s : State) (i : SlotId) (rest : List Ref) (st : Status), s.resetLine = false → s.responses = .slot i :: rest →
    s.slots[i].status = some st →
    let x := s.slots[i]
    ∃ t added, exec .delivery s = .next t ∧
      (∃ y, shownResponse s = some y ∧ t.taken = some y ∧ y.initiator = x.initiator ∧ y.tag = x.tag ∧
        y.kind = (match x.kind with | .read => .read | .write => .write) ∧ y.status = st ∧
        ((x.kind = .read ∧ (st = .ok ∨ st = .poisoned)) → x.offset.val + x.length ≤ 64 →
          ∃ bytes, y.data = some bytes ∧ bytes.length = x.length ∧
            ∀ (n : Nat) (h : x.offset.val + n < 64), n < x.length → bytes[n]? = some x.data[x.offset.val + n]) ∧
        (¬ (x.kind = .read ∧ (st = .ok ∨ st = .poisoned)) → y.data = none)) ∧
      t.tagTable = put s.tagTable x.initiator (put s.tagTable[x.initiator] x.tag false) ∧
      (∀ j, j ≠ i → t.slots[j] = s.slots[j]) ∧
      (x.memTag = none →
        t.slots[i] = { x with delivered := true, state := .free } ∧ t.arrival = without i s.arrival ∧
        ∀ k : FenceId, LeavesWaitSets (fun f => i ∈ f.waitSlots)
          (fun f => { f with waitSlots := without i f.waitSlots }) s.fences[k] t.fences[k]) ∧
      (x.memTag ≠ none →
        t.slots[i] = { x with delivered := true } ∧ t.arrival = s.arrival ∧ t.fences = s.fences) ∧
      t.responses = rest ++ added ∧
      (∀ ref ∈ added, ∃ k : FenceId, ref = .fence k ∧ t.fences[k].state = .completed ∧
        s.fences[k].state ≠ .completed) ∧
      (∀ k : FenceId, k ∈ s.fenceOrder → t.fences[k].state = .completed → s.fences[k].state ≠ .completed →
        Ref.fence k ∈ added) ∧
      PartFollows s t s.balances ∧
      t.causes = { s.causes with drained := t.causes.drained, restarted := t.causes.restarted } ∧
      t = { s with
        taken := t.taken, responses := t.responses, tagTable := t.tagTable, slots := t.slots, arrival := t.arrival
        fences := t.fences, part := t.part, pointer := t.pointer, balances := t.balances, causes := t.causes }

/-- A delivery of a fence's response frees its record and its tag and lets it leave the wait set of every later fence; one
of a refusal frees its record and nothing else; with nothing to deliver the part is unchanged. The part state follows as
after any event, in every part state (R13, R16, R17, R151, R164, R170). -/
def Obligations.FenceOrRefusalDelivered : Prop :=
  ∀ s : State, s.resetLine = false →
    (s.responses = [] → exec .delivery s = .next s) ∧
    (∀ k rest x, s.responses = .refusal k :: rest → s.refusals[(k : RefusalId)] = some x →
      ∃ t, exec .delivery s = .next t ∧ PartFollows s t s.balances ∧
        t.causes = { s.causes with drained := t.causes.drained, restarted := t.causes.restarted } ∧
        t = { s with
          responses := rest, refusals := put s.refusals k none
          taken := some
            { initiator := x.initiator, tag := x.tag, kind := x.kind, status := x.status, data := none }
          part := t.part, pointer := t.pointer, balances := t.balances, causes := t.causes }) ∧
    (∀ k rest st, s.responses = .fence k :: rest → s.fences[(k : FenceId)].status = some st →
      let f := s.fences[k]
      ∃ t, exec .delivery s = .next t ∧
        t.taken = some { initiator := f.initiator, tag := f.tag, kind := .fence, status := st, data := none } ∧
        t.tagTable = put s.tagTable f.initiator (put s.tagTable[f.initiator] f.tag false) ∧
        t.fences[k].state = .free ∧ t.fenceOrder = without k s.fenceOrder ∧
        (∀ j : FenceId, j ≠ k → LeavesWaitSets (fun f => k ∈ f.waitFences)
          (fun f => { f with waitFences := without k f.waitFences }) s.fences[j] t.fences[j]) ∧
        t.responses = rest ++ ((without k s.fenceOrder).filter (fun j =>
          t.fences[j].state == .completed && s.fences[j].state != .completed)).map .fence ∧
        PartFollows s t s.balances ∧
        t.causes = { s.causes with drained := t.causes.drained, restarted := t.causes.restarted } ∧
        t = { s with
          taken := t.taken, responses := t.responses, tagTable := t.tagTable, fences := t.fences
          fenceOrder := t.fenceOrder, part := t.part, pointer := t.pointer, balances := t.balances
          causes := t.causes })

/-! ## Grants (chapters 4 to 6) -/

/-- While a memory tag is FREE and HOLD is deasserted, a DRAIN_PENDING entry with a demanded reason is granted its drain
before anything else: the one of the greatest demand age, the lowest-numbered of equals (R114, R116). -/
def Obligations.DemandedDrainsComeFirst : Prop :=
  ∀ s : State, (∃ τ : TagId, s.tags[τ] = .free) → s.holdLine = false →
    let waits (e : EntryId) : Prop := s.entries[e].state = .drainPending ∧ ∃ r ∈ s.entries[e].reasons, demanded r = true
    let age (e : EntryId) : Nat := ageOf s.timeBase (s.entries[e].demandTime.getD s.timeBase)
    (∃ e, waits e) → ∃ e, choose s = some (.drain e) ∧ waits e ∧
      ∀ e', waits e' → age e' ≤ age e ∧ (age e' = age e → e ≤ e')

/-- The order condition of R62, judged against the slots that stand before the slot in its line list: no WRITE for a READ,
nothing at all for a WRITE. -/
def OrderHolds (s : State) (i : SlotId) : Prop :=
  let older := (lineList s s.slots[i].line).takeWhile (fun j => j ≠ i)
  (s.slots[i].kind = .read → ∀ j ∈ older, s.slots[j].kind = .read) ∧ (s.slots[i].kind = .write → older = [])

/-- The merge-state condition with the action it brings (R63, R77, R79 to R81, R85). -/
def ActionFits (s : State) (i : SlotId) : Action → Prop
  | .forward e =>
      s.slots[i].kind = .read ∧ s.slots[i].forwarding = .allowed ∧ mergeRef s s.slots[i].line = some e ∧
        entryLive s.entries[e] = true ∧ ∀ l : Lane, (requestedLanes s.slots[i])[l] = true → s.entries[e].valid[l] = true
  | .overlayRead e =>
      s.slots[i].kind = .read ∧ s.slots[i].forwarding = .allowed ∧ mergeRef s s.slots[i].line = some e ∧
        entryLive s.entries[e] = true ∧
        ∃ l : Lane, (requestedLanes s.slots[i])[l] = true ∧ s.entries[e].valid[l] = false
  | .plainRead =>
      s.slots[i].kind = .read ∧ ∀ e, mergeRef s s.slots[i].line = some e → entryLive s.entries[e] = false
  | .merge e =>
      s.slots[i].kind = .write ∧ s.slots[i].mode ≠ .confirm ∧ mergeRef s s.slots[i].line = some e ∧
        entryLive s.entries[e] = true
  | .mergeWait e =>
      s.slots[i].kind = .write ∧ s.slots[i].mode = .confirm ∧ mergeRef s s.slots[i].line = some e ∧
        entryLive s.entries[e] = true
  | .allocate e =>
      s.slots[i].kind = .write ∧ s.slots[i].mode = .merge ∧ mergeRef s s.slots[i].line = none ∧
        s.entries[e].state = .free ∧ ∀ e' < e, s.entries[e'].state ≠ .free
  | .direct => s.slots[i].kind = .write ∧ s.slots[i].mode ≠ .merge ∧ mergeRef s s.slots[i].line = none

/-- A slot chosen at a class is QUEUED, of that class or promoted into it, and the oldest of the class's candidates that is
line-eligible and grantable; the class is not held; its line's order and merge-state conditions hold for the action, and
an action that needs an op finds a FREE tag and HOLD deasserted (R62, R63, R66, R105, R112, R113, R117). -/
def Obligations.ChosenSlotIsEligible : Prop :=
  ∀ (s : State) (i : SlotId) (a : Action) (e : ClassId) (rr : Bool), choose s = some (.slot i a e rr) →
    s.slots[i].state = .queued ∧ (s.slots[i].cls = e ∨ s.slots[i].effCls = some e) ∧
    ¬ (s.active.classes[e].metered = 1 ∧ s.balances[e] ≤ 0 ∧ s.active.classes[e].hardCap = 1) ∧
    OrderHolds s i ∧ ActionFits s i a ∧
    (needsOp a = true → (∃ τ : TagId, s.tags[τ] = .free) ∧ s.holdLine = false) ∧
    (∃ older younger, s.arrival = older ++ i :: younger ∧
      ∀ j ∈ older, s.slots[j].state = .queued → (s.slots[j].cls = e ∨ s.slots[j].effCls = some e) →
        ¬ (OrderHolds s j ∧ ∃ b, ActionFits s j b ∧
          (needsOp b = true → (∃ τ : TagId, s.tags[τ] = .free) ∧ s.holdLine = false)))

/-- The class offers a grant: a QUEUED slot of the class or promoted into it is line-eligible and grantable (R62, R63, R112,
R113, R117). -/
def Offers (s : State) (k : ClassId) : Prop :=
  ∃ j ∈ s.arrival, s.slots[j].state = .queued ∧ (s.slots[j].cls = k ∨ s.slots[j].effCls = some k) ∧ OrderHolds s j ∧
    ∃ b, ActionFits s j b ∧ (needsOp b = true → (∃ τ : TagId, s.tags[τ] = .free) ∧ s.holdLine = false)

/-- The five categories in their order, for every choice (R105, R114, R116, R118). A slot is chosen only where no demanded
drain can be granted; an urgent class that is not held comes before one in budget, and each before a lower class of its
kind; a drain with background reasons only is chosen only where no demanded drain waits and no urgent or in-budget class
offers a grant, the earliest first-merge time first, the lowest-numbered of equals; an over-budget class is chosen only
where no drain can be granted either, from the round-robin pointer upward; and nothing is chosen only where no drain can be
granted and no class that is not held offers a grant. -/
def Obligations.ClassesAreTakenInOrder : Prop :=
  ∀ s : State,
    let issues : Prop := (∃ τ : TagId, s.tags[τ] = .free) ∧ s.holdLine = false
    let spent (k : ClassId) : Prop := s.active.classes[k].metered = 1 ∧ s.balances[k] ≤ 0
    let held (k : ClassId) : Prop := spent k ∧ s.active.classes[k].hardCap = 1
    let urgent (k : ClassId) : Prop := s.urgent[k] = true ∧ ¬ held k
    let budget (k : ClassId) : Prop := ¬ spent k
    let overspent (k : ClassId) : Prop := spent k ∧ ¬ held k
    let turn (k : ClassId) : Nat := (k - s.pointer : ClassId)
    let demands (d : EntryId) : Prop :=
      s.entries[d].state = .drainPending ∧ ∃ r ∈ s.entries[d].reasons, demanded r = true
    let background (d : EntryId) : Prop :=
      s.entries[d].state = .drainPending ∧ ∀ r ∈ s.entries[d].reasons, demanded r = false
    let age (d : EntryId) : Nat := ageOf s.timeBase s.entries[d].firstMerge
    (∀ (i : SlotId) (a : Action) (e : ClassId) (rr : Bool), choose s = some (.slot i a e rr) →
      Offers s e ∧ (issues → ∀ d, ¬ demands d) ∧
      (rr = false →
        (urgent e ∧ ∀ k, e < k → urgent k → ¬ Offers s k) ∨
        (budget e ∧ (∀ k, urgent k → ¬ Offers s k) ∧ ∀ k, e < k → budget k → ¬ Offers s k)) ∧
      (rr = true → overspent e ∧ (∀ k, urgent k → ¬ Offers s k) ∧ (∀ k, budget k → ¬ Offers s k) ∧
        (issues → ∀ d : EntryId, s.entries[d].state ≠ .drainPending) ∧
        ∀ k, overspent k → turn k < turn e → ¬ Offers s k)) ∧
    (∀ d : EntryId, choose s = some (.drain d) → issues ∧
      (demands d ∨
        (background d ∧ (∀ d', ¬ demands d') ∧ (∀ k, urgent k → ¬ Offers s k) ∧ (∀ k, budget k → ¬ Offers s k) ∧
          ∀ d', background d' → age d' ≤ age d ∧ (age d' = age d → d ≤ d')))) ∧
    (choose s = none → (issues → ∀ d : EntryId, s.entries[d].state ≠ .drainPending) ∧ ∀ k, ¬ held k → ¬ Offers s k)

/-- What every grant of a slot does besides its action: the slot leaves its class queue and its line's list and holds no
effective class; the rest of the list, the line's merge reference and every other line stay, but that an allocation sets
the reference and a line entry left with neither is removed; the line's slots hold the effective classes of R68; the charge
of R108 falls on its own class, down to −64 and in full on BYTES_CHARGED; the pointer moves at a category 5 grant only; its
own class's urgency flag is judged and a beginning of an episode counted; no other slot changes but in its effective class,
and no other counter but the one of the action (R39, R59, R68, R72, R108, R110, R111, R118, R119). -/
def Obligations.GrantBookkeeping : Prop :=
  ∀ (s : State) (i : SlotId) (a : Action) (e : ClassId) (rr : Bool), s.resetLine = false →
    choose s = some (.slot i a e rr) →
    let k := s.slots[i].cls
    let line := s.slots[i].line
    let n : Nat := match a with
      | .forward _ => 0
      | .overlayRead _ | .plainRead => 64
      | .merge _ | .mergeWait _ | .allocate _ | .direct => lanesCount s.slots[i].lanes
    ∃ t, exec .grant s = .next t ∧ t.queues = put s.queues k (without i s.queues[k]) ∧ t.slots[i].effCls = none ∧
      i ∉ lineList t line ∧ SameCapture s.slots[i] t.slots[i] ∧
      ((s.lines.map (·.line)).Nodup →
        lineList t line = without i (lineList s line) ∧
        ((∀ m, a ≠ .allocate m) → mergeRef t line = mergeRef s line) ∧
        (lineList t line = [] → mergeRef t line = none → findLine t line = none) ∧
        ((lineList s line).Nodup → EffectiveOn t line ∧
          ∀ c : ClassId, t.counters.perClass[c].promotions =
            satAdd s.counters.perClass[c].promotions ((without i (lineList s line)).countP (rises s t c)))) ∧
      (∀ b, b ≠ line → findLine t b = findLine s b) ∧
      t.balances = put s.balances k
        (if s.active.classes[k].metered = 1 then max (-64) (s.balances[k] - n) else s.balances[k]) ∧
      t.pointer = (if rr then e + 1 else s.pointer) ∧ t.urgent = put s.urgent k (urgentNow t k) ∧
      (∀ c : ClassId, t.counters.perClass[c] = { s.counters.perClass[c] with
        bytesCharged := satAdd s.counters.perClass[c].bytesCharged (if c = k then n else 0)
        urgentEpisodes := satAdd s.counters.perClass[c].urgentEpisodes
          (if c = k ∧ t.urgent[k] = true ∧ s.urgent[k] = false then 1 else 0)
        promotions := t.counters.perClass[c].promotions }) ∧
      t.counters = { s.counters with
        perClass := t.counters.perClass
        forwardedReads := satAdd s.counters.forwardedReads (match a with | .forward _ => 1 | _ => 0)
        overlayReads := satAdd s.counters.overlayReads (match a with | .overlayRead _ => 1 | _ => 0)
        mergedWrites := satAdd s.counters.mergedWrites
          (match a with | .merge _ | .mergeWait _ | .allocate _ => 1 | _ => 0) } ∧
      (∀ j, j ≠ i → t.slots[j] = { s.slots[j] with effCls := t.slots[j].effCls }) ∧
      (∀ j, j ≠ i → j ∉ lineList s line → t.slots[j] = s.slots[j]) ∧
      t = { s with
        queues := t.queues, slots := t.slots, lines := t.lines, entries := t.entries, counters := t.counters
        tags := t.tags, issued := t.issued, fences := t.fences, balances := t.balances, pointer := t.pointer
        urgent := t.urgent, responses := t.responses }

/-- Every merge entry after a READ's grant: as it stood, but that the line's entry takes STRICT_READ where a STRICT READ
leads the line (R64, R72, R86, R87). -/
def EntriesButStrictRead (s t : State) (line : LineAddr) : Prop :=
  ∀ d : EntryId, t.entries[d] =
    if mergeRef s line = some d ∧ (leadingReads t line).any (fun j => t.slots[j].forwarding == .strict) = true
    then withReason s.entries[d] .strictRead s.timeBase else s.entries[d]

/-- A forward answers a READ from its line's entry with no memory op: each requested lane takes the entry's byte, the slot
is DONE with OK and its reference joins; the entries stay but for a STRICT_READ that a STRICT READ left leading adds
(R38, R64, R72, R86). -/
def Obligations.ForwardAnswersFromTheEntry : Prop :=
  ∀ (s : State) (i : SlotId) (m : EntryId) (e : ClassId) (rr : Bool), s.resetLine = false →
    choose s = some (.slot i (.forward m) e rr) →
    ∃ t added, exec .grant s = .next t ∧
      t.slots[i] = { s.slots[i] with
        state := .done, status := some .ok, effCls := none
        data := tabulate (fun l => if s.slots[i].offset ≤ l ∧ l.val < s.slots[i].offset + s.slots[i].length
          then s.entries[m].data[l] else 0) } ∧
      t.responses = s.responses ++ added ∧ (∀ ref, ref ∈ added ↔ ref = .slot i) ∧
      t.counters.forwardedReads = satAdd s.counters.forwardedReads 1 ∧
      t.tags = s.tags ∧ t.issued = s.issued ∧ t.fences = s.fences ∧ EntriesButStrictRead s t s.slots[i].line

/-- A plain or overlay read issues a LINE_READ of its line under the lowest-numbered FREE tag, which its slot takes; an
overlay first copies the entry's valid lanes into the slot. A plain read leaves every entry as it stands, and so does an
overlay but for a STRICT_READ that a STRICT READ left leading adds (R64, R72, R85, R87, R127, R130). -/
def Obligations.LineReadIsIssued : Prop :=
  ∀ (s : State) (i : SlotId) (a : Action) (e : ClassId) (rr : Bool), s.resetLine = false →
    choose s = some (.slot i a e rr) → (a = .plainRead ∨ ∃ m, a = .overlayRead m) →
    ∃ t τ, exec .grant s = .next t ∧ s.tags[(τ : TagId)] = .free ∧ (∀ τ' < τ, s.tags[τ'] ≠ .free) ∧
      t.tags = put s.tags τ (.outstanding
        { kind := .lineRead, line := s.slots[i].line, source := .slot i, issueTime := s.timeBase }) ∧
      t.issued = some
        { tag := τ, kind := .lineRead, line := s.slots[i].line, lanes := allLanes, data := none } ∧
      (a = .plainRead → t.slots[i] = { s.slots[i] with state := .issued, memTag := some τ, effCls := none } ∧
        t.entries = s.entries ∧ t.counters.overlayReads = s.counters.overlayReads) ∧
      (∀ m, a = .overlayRead m →
        t.slots[i] = { s.slots[i] with
          state := .issued, memTag := some τ, effCls := none, snapshot := some s.entries[m].valid
          data := tabulate (fun l => if s.entries[m].valid[l] then s.entries[m].data[l] else 0) } ∧
        t.counters.overlayReads = satAdd s.counters.overlayReads 1) ∧
      t.responses = s.responses ∧ t.fences = s.fences ∧ EntriesButStrictRead s t s.slots[i].line

/-- The slot's written lanes stand in the entry: its bytes replace the entry's there and nowhere else, the valid mask gains
the lanes, and the initiator is a contributor, posted for a MERGE- or POST-mode WRITE (R78). -/
def Merged (x : Slot) (before after : MergeEntry) : Prop :=
  (∀ l : Lane, after.data[l] = if x.lanes[l] then x.data[l] else before.data[l]) ∧
  (∀ l : Lane, after.valid[l] = (before.valid[l] || x.lanes[l])) ∧
  (∀ i : InitiatorId, i ≠ x.initiator → after.contributors[i] = before.contributors[i]) ∧
  after.contributors[x.initiator] =
    (if x.mode = .confirm then some (before.contributors[x.initiator].getD .confirmedOnly) else some .posted)

/-- A merge into a line's entry adds the reason (R64, R80, R92, R95, R150). -/
def AddsOnMerge (s t : State) (i : SlotId) (confirm allocating : Bool) (after : MergeEntry) (r : Reason) : Prop :=
  (r = .full ∧ ∀ l : Lane, after.valid[l] = true) ∨
  (r = .confirm ∧ confirm = true) ∨
  (r = .drainCmd ∧ allocating = true ∧ s.part = .draining) ∨
  (r = .strictRead ∧ (leadingReads t s.slots[i].line).any (fun j => t.slots[j].forwarding == .strict) = true) ∨
  (r = .fence ∧ ∃ k : FenceId, s.fences[k].state = .waiting ∧ i ∈ s.fences[k].waitSlots)

/-- The reasons, state and demand time of an OPEN or DRAIN_PENDING entry after a merge: the reasons it adds join those the
entry held; one that is added makes the entry DRAIN_PENDING, and a demanded one sets the demand time where the entry has
none (R91). -/
def ReasonsAfterMerge (s t : State) (i : SlotId) (confirm allocating : Bool) (before after : MergeEntry) : Prop :=
  let adds := AddsOnMerge s t i confirm allocating after
  (∀ r : Reason, r ∈ after.reasons ↔ r ∈ before.reasons ∨ adds r) ∧
  ((∃ r, adds r) → after.state = .drainPending) ∧ ((∀ r, ¬ adds r) → after.state = before.state) ∧
  ((∃ r, adds r ∧ demanded r = true) → after.demandTime = some (before.demandTime.getD s.timeBase)) ∧
  ((∀ r, adds r → demanded r = false) → after.demandTime = before.demandTime)

/-- A WAITING fence that waits for the merged slot waits for the entry too (R150). -/
def EntryJoinsWaitSets (s t : State) (i : SlotId) (m : EntryId) : Prop :=
  ∀ k : FenceId,
    (s.fences[k].state = .waiting ∧ i ∈ s.fences[k].waitSlots →
      t.fences[k] = { s.fences[k] with waitEntries := t.fences[k].waitEntries } ∧
      ∀ e, e ∈ t.fences[k].waitEntries ↔ e ∈ s.fences[k].waitEntries ∨ e = m) ∧
    (¬ (s.fences[k].state = .waiting ∧ i ∈ s.fences[k].waitSlots) → t.fences[k] = s.fences[k])

/-- A WRITE whose line's entry takes merges is merged into it with no memory op: a MERGE- or POST-mode one is DONE with OK,
a CONFIRM-mode one waits at the back of the entry's confirmations and adds CONFIRM; a reason that the merge adds makes the
entry DRAIN_PENDING and a demanded one sets its first demand time (R78 to R80, R91). -/
def Obligations.WriteIsMerged : Prop :=
  ∀ (s : State) (i : SlotId) (a : Action) (m : EntryId) (e : ClassId) (rr : Bool), s.resetLine = false →
    choose s = some (.slot i a e rr) → (a = .merge m ∨ a = .mergeWait m) →
    let confirm := decide (a = .mergeWait m)
    ∃ t added, exec .grant s = .next t ∧ Merged s.slots[i] s.entries[m] t.entries[m] ∧
      ReasonsAfterMerge s t i confirm false s.entries[m] t.entries[m] ∧ EntryJoinsWaitSets s t i m ∧
      t.entries[m].line = s.entries[m].line ∧ t.entries[m].window = s.entries[m].window ∧
      t.entries[m].epoch = s.entries[m].epoch ∧ t.entries[m].firstMerge = s.entries[m].firstMerge ∧
      t.entries[m].memTag = s.entries[m].memTag ∧
      t.entries[m].waiting = s.entries[m].waiting ++ (if confirm then [i] else []) ∧
      (∀ d, d ≠ m → t.entries[d] = s.entries[d]) ∧
      t.slots[i] = { s.slots[i] with
        effCls := none, state := if confirm then .waitDrain else .done
        status := if confirm then s.slots[i].status else some .ok } ∧
      t.responses = s.responses ++ added ∧ (∀ ref, ref ∈ added ↔ confirm = false ∧ ref = .slot i) ∧
      t.counters.mergedWrites = satAdd s.counters.mergedWrites 1 ∧ t.tags = s.tags ∧ t.issued = s.issued

/-- A MERGE-mode WRITE whose line has no entry allocates the lowest-numbered FREE one, which holds that WRITE alone, and is
DONE with OK; the line's merge reference is the entry. The reasons of R77 are added in the same grant, and then PRESSURE is
judged: where its condition holds, the OPEN entry of the greatest age takes it, the lowest-numbered of equals, and no other
entry changes (R60, R77, R94). -/
def Obligations.EntryIsAllocated : Prop :=
  ∀ (s : State) (i : SlotId) (m : EntryId) (e : ClassId) (rr : Bool), s.resetLine = false →
    choose s = some (.slot i (.allocate m) e rr) → i ∈ lineList s s.slots[i].line →
    let x := s.slots[i]
    let opened : MergeEntry := { MergeEntry.free with state := .opened }
    ∃ t added entry, exec .grant s = .next t ∧ s.entries[m].state = .free ∧ (∀ d < m, s.entries[d].state ≠ .free) ∧
      Merged x opened entry ∧ ReasonsAfterMerge s t i false true opened entry ∧ EntryJoinsWaitSets s t i m ∧
      entry.line = x.line ∧ entry.window = x.window ∧ entry.epoch = x.epoch ∧ entry.firstMerge = s.timeBase ∧
      entry.waiting = [] ∧ entry.memTag = none ∧
      t.entries = pressured s.active.mergeReserve.toNat s.timeBase (put s.entries m entry) ∧
      mergeRef t x.line = some m ∧
      t.slots[i] = { x with effCls := none, state := .done, status := some .ok } ∧
      t.responses = s.responses ++ added ∧ (∀ ref, ref ∈ added ↔ ref = .slot i) ∧
      t.counters.mergedWrites = satAdd s.counters.mergedWrites 1 ∧ t.tags = s.tags ∧ t.issued = s.issued

/-- A POST- or CONFIRM-mode WRITE whose line has no entry issues a MASKED_WRITE of its own lanes under the lowest-numbered
FREE tag, which its slot takes: POST is DONE with OK, CONFIRM is ISSUED; no entry changes (R81, R127, R130). -/
def Obligations.DirectWriteIsIssued : Prop :=
  ∀ (s : State) (i : SlotId) (e : ClassId) (rr : Bool), s.resetLine = false →
    choose s = some (.slot i .direct e rr) →
    let x := s.slots[i]
    ∃ t τ added, exec .grant s = .next t ∧ s.tags[(τ : TagId)] = .free ∧ (∀ τ' < τ, s.tags[τ'] ≠ .free) ∧
      t.tags = put s.tags τ (.outstanding
        { kind := .maskedWrite x.lanes, line := x.line, source := .slot i, issueTime := s.timeBase }) ∧
      t.issued = some
        { tag := τ, kind := .maskedWrite x.lanes, line := x.line, lanes := x.lanes
          data := some (tabulate (fun l => if x.lanes[l] then x.data[l] else 0)) } ∧
      (x.mode = .post → t.slots[i] = { x with
        state := .done, status := some .ok, memTag := some τ, effCls := none }) ∧
      (x.mode = .confirm → t.slots[i] = { x with state := .issued, memTag := some τ, effCls := none }) ∧
      t.responses = s.responses ++ added ∧ (∀ ref, ref ∈ added ↔ x.mode = .post ∧ ref = .slot i) ∧
      t.entries = s.entries ∧ t.fences = s.fences

/-- A drain's grant issues a MASKED_WRITE of the entry's valid lanes under the lowest-numbered FREE tag, makes the entry
DRAINING and counts in DRAINS_ISSUED; nothing else changes (R96, R127, R130). -/
def Obligations.DrainIsGranted : Prop :=
  ∀ (s : State) (e : EntryId), s.resetLine = false → choose s = some (.drain e) →
    let m := s.entries[e]
    ∃ τ : TagId, m.state = .drainPending ∧ s.tags[τ] = .free ∧ (∀ τ' < τ, s.tags[τ'] ≠ .free) ∧
      s.holdLine = false ∧
      exec .drainGrant s = .next { s with
        tags := put s.tags τ (.outstanding
          { kind := .maskedWrite m.valid, line := m.line, source := .entry e, issueTime := s.timeBase })
        issued := some
          { tag := τ, kind := .maskedWrite m.valid, line := m.line, lanes := m.valid
            data := some (tabulate (fun l => if m.valid[l] then m.data[l] else 0)) }
        entries := put s.entries e { m with state := .draining, memTag := some τ }
        counters := { s.counters with drainsIssued := satAdd s.counters.drainsIssued 1 } }

/-- GRANT and DRAIN_GRANT are the arbiter's own choice: where its choice is not of the command's kind the grant is not made
(the model's choice, log 5), and a command that makes no grant changes nothing (R115). -/
def Obligations.GrantOnlyAsChosen : Prop :=
  ∀ s : State,
    ((∀ i a e rr, choose s ≠ some (.slot i a e rr)) → exec .grant s = .next s) ∧
    ((∀ e, choose s ≠ some (.drain e)) → exec .drainGrant s = .next s)

/-! ## The memory port (chapter 7) -/

/-- A completion on a FREE tag, or with a tag value of 24 or above, is discarded, counted and raises STRAY_COMPLETION;
the Memory Operation Table and all else stay (R139). -/
def Obligations.StrayCompletionIsDiscarded : Prop :=
  ∀ (s : State) (n : Nat) (st : MemStatus) (d : LineData), s.resetLine = false →
    (24 ≤ n ∨ ∃ τ : TagId, τ.val = n ∧ s.tags[τ] = .free) →
    exec (.completion n st d) s = .next { s with
      counters := { s.counters with strayCompletions := satAdd s.counters.strayCompletions 1 }
      causes := { s.causes with strayCompletion := true } }

/-- A completion on a QUARANTINED tag is discarded, whatever it carries: its tag becomes FREE and LATE_COMPLETIONS rises,
and the condition tags exhausted no longer holds (R138, R140, R198). -/
def Obligations.LateCompletionFreesTheTag : Prop :=
  ∀ (s : State) (τ : TagId) (st : MemStatus) (d : LineData), s.resetLine = false → s.tags[τ] = .quarantined →
    ∃ t, exec (.completion τ st d) s = .next t ∧ t.tags = put s.tags τ .free ∧
      t.counters = { s.counters with lateCompletions := satAdd s.counters.lateCompletions 1 } ∧
      t = { s with tags := t.tags, counters := t.counters } ∧ (pendingCauses t).getLsbD 6 = false

/-- The result of an ISSUED slot when its op completes: the first row of R40 that applies. -/
def CompletionResult (x : Slot) (st : MemStatus) (d : LineData) (status : Status) (data : LineData) : Prop :=
  (x.abort = true → status = .errAbort ∧ data = x.data) ∧
  (x.abort = false → x.kind = .read → st = .ok → status = .ok ∧
    ∀ l : Lane, data[l] = (match x.snapshot with | some m => if m[l] then x.data[l] else d[l] | none => d[l])) ∧
  (x.abort = false → x.kind = .read → st = .fault → x.policy = .error → status = .errMem ∧ data = x.data) ∧
  (x.abort = false → x.kind = .read → st = .fault → x.policy = .poison → status = .poisoned ∧
    ∀ l : Lane, data[l] = (match x.snapshot with | some m => if m[l] then x.data[l] else 0 | none => 0)) ∧
  (x.abort = false → x.kind = .write → status = (match st with | .ok => .ok | .fault => .errMem) ∧ data = x.data)

/-- A completion of an ISSUED slot's op makes the slot DONE with the status and data of R40, removes its memory tag, frees
the tag and lets the slot's reference join; it makes no deferred fault record and marks no fence (R131 to R133). -/
def Obligations.IssuedSlotIsCompleted : Prop :=
  ∀ (s : State) (τ : TagId) (st : MemStatus) (d : LineData) (op : OutstandingOp) (i : SlotId), s.resetLine = false →
    s.tags[τ] = .outstanding op → op.source = .slot i → s.slots[i].state = .issued → i ∈ s.arrival →
    ∃ t status data added, exec (.completion τ st d) s = .next t ∧ CompletionResult s.slots[i] st d status data ∧
      t.slots[i] = { s.slots[i] with state := .done, status := some status, data := data, memTag := none } ∧
      (∀ j, j ≠ i → t.slots[j] = s.slots[j]) ∧ t.tags = put s.tags τ .free ∧
      t.responses = s.responses ++ added ∧ (∀ ref, ref ∈ added ↔ ref = .slot i) ∧
      t = { s with slots := t.slots, tags := t.tags, responses := t.responses }

/-- A posted direct write's op ends by a completion: its status stays OK, its memory tag is removed, and the slot is FREE if
its response has been delivered; FAULT hands a MEM_FAULT record and marks the fences that hold the slot before it leaves
them. The part state follows as after any event, in every part state (R42, R134, R157, R164, R170). -/
def Obligations.PostedWriteIsCompleted : Prop :=
  ∀ (s : State) (τ : TagId) (st : MemStatus) (d : LineData) (op : OutstandingOp) (i : SlotId), s.resetLine = false →
    s.tags[τ] = .outstanding op → op.source = .slot i → s.slots[i].state = .done →
    let x := s.slots[i]
    let marked (f : FenceRecord) : FenceRecord :=
      if f.state = .waiting ∧ i ∈ f.waitSlots ∧ st = .fault then { f with faulted := true } else f
    ∃ t, exec (.completion τ st d) s = .next t ∧ t.tags = put s.tags τ .free ∧
      (∀ j, j ≠ i → t.slots[j] = s.slots[j]) ∧
      (x.delivered = false → t.slots[i] = { x with memTag := none } ∧ t.arrival = s.arrival ∧
        ∀ k : FenceId, t.fences[k] = marked s.fences[k]) ∧
      (x.delivered = true → t.slots[i] = { x with memTag := none, state := .free } ∧ t.arrival = without i s.arrival ∧
        ∀ k : FenceId, LeavesWaitSets (fun f => i ∈ f.waitSlots)
          (fun f => { f with waitSlots := without i f.waitSlots }) (marked s.fences[k]) t.fences[k]) ∧
      RecordsHanded s t (if st = .fault then [slotLoss .memFault x s.timeBase] else []) ∧
      t.responses = s.responses ++ fencesCompleted s t ∧ PartFollows s t s.balances ∧
      t.causes = { s.causes with
        faultRecorded := t.causes.faultRecorded, faultOverflow := t.causes.faultOverflow
        drained := t.causes.drained, restarted := t.causes.restarted } ∧
      t = { s with
        tags := t.tags, slots := t.slots, arrival := t.arrival, fences := t.fences, faults := t.faults
        overflow := t.overflow, causes := t.causes, responses := t.responses, part := t.part, pointer := t.pointer
        balances := t.balances }

/-- A drain's op ends by a completion: the waiting confirmations are DONE with OK or ERR_MEM; FAULT hands a MEM_FAULT record
and marks the fences of posted contributors that hold the entry; the entry is FREE and leaves every wait set and its
line's reference; then PRESSURE is judged, and where its condition holds the OPEN entry of the greatest age takes it, the
lowest-numbered of equals, and no other entry changes. The part state follows as after any event, in every part state
(R41, R94, R97, R98, R100, R164, R170). What a FREE entry's data, mask, window, epoch and first-merge time hold is the
model's choice (log 15). -/
def Obligations.DrainIsCompleted : Prop :=
  ∀ (s : State) (τ : TagId) (st : MemStatus) (d : LineData) (op : OutstandingOp) (e : EntryId), s.resetLine = false →
    MergeLaw s → s.tags[τ] = .outstanding op → op.source = .entry e →
    let m := s.entries[e]
    let marked (f : FenceRecord) : FenceRecord :=
      if f.state = .waiting ∧ e ∈ f.waitEntries ∧ m.contributors[f.initiator] = some .posted ∧ st = .fault
      then { f with faulted := true } else f
    ∃ t, exec (.completion τ st d) s = .next t ∧ t.tags = put s.tags τ .free ∧
      (∀ i : SlotId, t.slots[i] = if i ∈ m.waiting then
        { s.slots[i] with state := .done, status := some (match st with | .ok => .ok | .fault => .errMem) }
        else s.slots[i]) ∧
      t.entries = pressured s.active.mergeReserve.toNat s.timeBase (put s.entries e MergeEntry.free) ∧
      mergeRef t m.line = none ∧ (∀ b, b ≠ m.line → findLine t b = findLine s b) ∧
      lineList t m.line = lineList s m.line ∧
      (∀ k : FenceId, LeavesWaitSets (fun f => e ∈ f.waitEntries)
        (fun f => { f with waitEntries := without e f.waitEntries }) (marked s.fences[k]) t.fences[k]) ∧
      RecordsHanded s t (if st = .fault then [entryLoss .memFault m s.timeBase] else []) ∧
      t.responses = s.responses ++
        (s.arrival.filter (fun i => decide (i ∈ m.waiting) && s.slots[i].state != .done)).map .slot ++
        fencesCompleted s t ∧
      PartFollows s t s.balances ∧
      t.causes = { s.causes with
        faultRecorded := t.causes.faultRecorded, faultOverflow := t.causes.faultOverflow
        drained := t.causes.drained, restarted := t.causes.restarted } ∧
      t = { s with
        tags := t.tags, slots := t.slots, entries := t.entries, lines := t.lines, fences := t.fences
        faults := t.faults, overflow := t.overflow, causes := t.causes, responses := t.responses, part := t.part
        pointer := t.pointer, balances := t.balances }

/-- HOLD is a level the part reads when a grant is chosen: taking it changes nothing else, and while it is asserted no
choice is a drain or an action that needs an op (R113, R141). -/
def Obligations.HoldIsALevel : Prop :=
  (∀ (s : State) (l : Bool), exec (.hold l) s = .next { s with holdLine := l }) ∧
  (∀ s : State, s.holdLine = true → (∀ e, choose s ≠ some (.drain e)) ∧
    ∀ i a e rr, choose s = some (.slot i a e rr) → needsOp a = false)

/-- The response timeout of one op, at or beyond the limit: its tag is QUARANTINED, TIMEOUTS rises, MEM_TIMEOUT is raised,
and its source is resolved: an ISSUED slot with ERR_TIMEOUT or, if marked, ERR_ABORT; a posted direct write loses its
memory tag, its loss is recorded, the fences that hold it are marked, and it is FREE once delivered; an entry answers its
confirmations, its loss is recorded, the fences of its posted contributors are marked, it is FREE and leaves the wait sets
(R99, R128, R136). An op below the limit stays, and so does all else. That the judgement is a command apart from a step,
with no effect below the limit, is the model's choice (log 6), and so are a FREE entry's other fields (log 15). The whole
resolution is stated for states that meet `MergeLaw` and `StoreLaw`. -/
def Obligations.ResponseTimeoutIsTaken : Prop :=
  ∀ (s : State) (τ : TagId) (op : OutstandingOp), s.resetLine = false → s.tags[τ] = .outstanding op →
    (ageOf s.timeBase op.issueTime < s.active.responseTimeout.toNat → exec (.responseTimeout τ) s = .next s) ∧
    (s.active.responseTimeout.toNat ≤ ageOf s.timeBase op.issueTime →
      ∃ t, exec (.responseTimeout τ) s = .next t ∧ t.tags = put s.tags τ .quarantined ∧
        t.counters = { s.counters with timeouts := satAdd s.counters.timeouts 1 } ∧ t.causes.memTimeout = true ∧
        (∀ i : SlotId, op.source = .slot i → s.slots[i].state = .issued →
          RecordsHanded s t [] ∧ t.fences = s.fences ∧
          t.slots[i] = { s.slots[i] with
            state := .done, status := some (if s.slots[i].abort then .errAbort else .errTimeout), memTag := none }) ∧
        (∀ i : SlotId, op.source = .slot i → s.slots[i].state = .done →
          t.slots[i] = { s.slots[i] with
            memTag := none, state := if s.slots[i].delivered then .free else .done } ∧
          RecordsHanded s t [slotLoss .timeout s.slots[i] s.timeBase]) ∧
        (∀ e : EntryId, op.source = .entry e → t.entries[e] = MergeEntry.free ∧
          (∀ i ∈ s.entries[e].waiting, t.slots[i].state = .done ∧ t.slots[i].status = some .errTimeout) ∧
          RecordsHanded s t [entryLoss .timeout s.entries[e] s.timeBase]) ∧
        (MergeLaw s → StoreLaw s → TimeoutsTaken [op] s.timeBase s.slots s.entries s.balances s t) ∧
        t = { s with
          tags := t.tags, counters := t.counters, causes := t.causes, slots := t.slots, arrival := t.arrival
          fences := t.fences, faults := t.faults, overflow := t.overflow, entries := t.entries, lines := t.lines
          responses := t.responses, part := t.part, pointer := t.pointer, balances := t.balances })

/-! ## The time base (chapters 3, 6 and 11) -/

/-- A balance after an expiry of the refill period (R107). -/
def refilledBalance (c : ConfigSet) (k : ClassId) (b : Int) : Int :=
  if c.classes[k].metered = 1 then
    (if b + c.classes[k].refill.toNat > c.classes[k].ceiling.toNat then (c.classes[k].ceiling.toNat : Int)
      else b + c.classes[k].refill.toNat)
  else b

/-- A step of the time base: the count advances modulo 2^32; live slots age to 65 535; the refill count rises and the
period expires where it equals or exceeds the active period (R46, R106, R107, R195), which the model keeps as the period in
force (log 6). Restart completion in the step sets the balances instead (R171). No counter but URGENT_EPISODES and TIMEOUTS
changes (R200). -/
def Obligations.TimeBaseAdvances : Prop :=
  ∀ s : State, s.resetLine = false →
    let due := s.active.refillPeriod.toNat ≤ s.refillCount + 1
    ∃ t, exec .timeBaseStep s = .next t ∧ t.timeBase = s.timeBase + 1 ∧
      t.refillCount = (if due then 0 else s.refillCount + 1) ∧ t.periodInForce = s.active.refillPeriod ∧
      (∀ i : SlotId, t.slots[i].age =
        if s.slots[i].state = .free then s.slots[i].age else min (s.slots[i].age + 1) 65535) ∧
      (s.part ≠ .restarting → ∀ k : ClassId, t.balances[k] =
        if due then refilledBalance s.active k s.balances[k] else s.balances[k]) ∧
      (∀ i : SlotId, SameCapture s.slots[i] t.slots[i]) ∧
      (∀ k : ClassId, t.counters.perClass[k] =
        { s.counters.perClass[k] with urgentEpisodes := t.counters.perClass[k].urgentEpisodes }) ∧
      t.counters = { s.counters with perClass := t.counters.perClass, timeouts := t.counters.timeouts } ∧
      t = { s with
        timeBase := t.timeBase, refillCount := t.refillCount, periodInForce := t.periodInForce, slots := t.slots
        balances := t.balances, urgent := t.urgent, entries := t.entries, lines := t.lines, tags := t.tags
        arrival := t.arrival, fences := t.fences, faults := t.faults, overflow := t.overflow, causes := t.causes
        counters := t.counters, responses := t.responses, part := t.part, pointer := t.pointer }

/-- After a step of the time base every urgency flag stands as R110 gives and each beginning of an episode is counted
(R111); every entry at or beyond the merge hold limit that takes reasons holds AGED (R93); every OUTSTANDING op at or
beyond the response timeout is QUARANTINED and counted, and no other tag or counter changes (R136, R200). For states that meet `MergeLaw` and
`StoreLaw`: AGED is taken by exactly the entries at or beyond the limit that take reasons, before the timeouts, whose
sources are resolved as R136 gives; each entry they free judges PRESSURE (R94), and a FREE entry's other fields are the
model's (log 15). -/
def Obligations.EveryStepIsJudged : Prop :=
  ∀ s : State, s.resetLine = false →
    let now := s.timeBase + 1
    ∃ t, exec .timeBaseStep s = .next t ∧
      (∀ k : ClassId,
        (t.urgent[k] = true ↔ s.active.classes[k].latencyLimit ≠ 0 ∧
          ∃ i rest, t.queues[k] = i :: rest ∧ s.active.classes[k].latencyLimit.toNat ≤ t.slots[i].age)) ∧
      CountsJudged s t (opsDue s s.active.responseTimeout.toNat now).length ∧
      (∀ e : EntryId, entryLive t.entries[e] = true →
        s.active.holdLimit.toNat ≤ ageOf now t.entries[e].firstMerge → Reason.aged ∈ t.entries[e].reasons) ∧
      (∀ (τ : TagId) (op : OutstandingOp), s.tags[τ] = .outstanding op →
        t.tags[τ] = if s.active.responseTimeout.toNat ≤ ageOf now op.issueTime then .quarantined
          else .outstanding op) ∧
      (∀ τ : TagId, isOutstanding s.tags[τ] = false → t.tags[τ] = s.tags[τ]) ∧
      (MergeLaw s → StoreLaw s →
        TimeoutsTaken (opsDue s s.active.responseTimeout.toNat now) now
          (tabulate (fun i => { s.slots[i] with
            age := if s.slots[i].state = .free then s.slots[i].age else min (s.slots[i].age + 1) 65535 }))
          (agedEntries s.active.holdLimit.toNat now s.entries)
          (tabulate (fun k => if s.active.refillPeriod.toNat ≤ s.refillCount + 1
            then refilledBalance s.active k s.balances[k] else s.balances[k])) s t)

/-- The reason is added to the entry: an OPEN or DRAIN_PENDING entry takes it and is DRAIN_PENDING, and a demanded reason
sets the demand time where the entry has none; any other entry stays (R91). -/
def TakesReason (r : Reason) (now : Time) (before after : MergeEntry) : Prop :=
  ((before.state = .opened ∨ before.state = .drainPending) →
    (∀ x, x ∈ after.reasons ↔ x = r ∨ x ∈ before.reasons) ∧
    after = { before with
      state := .drainPending, reasons := after.reasons
      demandTime := if demanded r then some (before.demandTime.getD now) else before.demandTime }) ∧
  (before.state ≠ .opened → before.state ≠ .drainPending → after = before)

/-- The judgements of a step taken on their own: an expiry of the refill period where the count has reached the period that
the last step took (R106, R107), AGED on an entry that takes reasons at or beyond the merge hold limit (R91, R93), and a
class's urgency flag (R110, R111). Where the rule's condition does not hold nothing changes (the model's choice, log 6). A
step leaves no expiry over, and a period that a COMMIT has lowered waits for the next step, so in a state that meets
`ConfigLaw` REFILL_EXPIRY changes nothing (R106). -/
def Obligations.JudgementsOnTheirOwn : Prop :=
  (∀ m r now, TakesReason r now m (withReason m r now)) ∧
  ∀ s : State, s.resetLine = false →
    (s.periodInForce.toNat ≤ s.refillCount → ∃ t, exec .refillExpiry s = .next t ∧
      (∀ k : ClassId, t.balances[k] = refilledBalance s.active k s.balances[k]) ∧
      t = { s with balances := t.balances, refillCount := 0 }) ∧
    (s.refillCount < s.periodInForce.toNat → exec .refillExpiry s = .next s) ∧
    (ConfigLaw s → exec .refillExpiry s = .next s) ∧
    (∀ e : EntryId, entryLive s.entries[e] = true →
      s.active.holdLimit.toNat ≤ ageOf s.timeBase s.entries[e].firstMerge →
      ∃ t, exec (.aged e) s = .next t ∧ t.entries[e].state = .drainPending ∧
        (∀ r, r ∈ t.entries[e].reasons ↔ r = .aged ∨ r ∈ s.entries[e].reasons) ∧
        t.entries = put s.entries e
          { s.entries[e] with state := .drainPending, reasons := t.entries[e].reasons } ∧
        t = { s with entries := t.entries }) ∧
    (∀ e : EntryId, ¬ (entryLive s.entries[e] = true ∧
      s.active.holdLimit.toNat ≤ ageOf s.timeBase s.entries[e].firstMerge) → exec (.aged e) s = .next s) ∧
    (∀ k : ClassId, ∃ t, exec (.urgentEpisode k) s = .next t ∧ t.urgent = put s.urgent k (urgentNow s k) ∧
      (∀ j : ClassId, t.counters.perClass[j] = { s.counters.perClass[j] with
        urgentEpisodes := satAdd s.counters.perClass[j].urgentEpisodes
          (if j = k ∧ urgentNow s k = true ∧ s.urgent[k] = false then 1 else 0) }) ∧
      t.counters = { s.counters with perClass := t.counters.perClass } ∧
      t = { s with urgent := t.urgent, counters := t.counters })

/-! ## Part states (chapter 9) -/

/-- DRAIN in RUNNING adds DRAIN_CMD to every entry that takes reasons and moves the part to DRAINING, or through it to
QUIESCENT, raising DRAINED, where the part is empty; in DRAINING and QUIESCENT it changes nothing; the answer is DONE with
the code of the part state after it. In RESTARTING it answers BUSY (R162 to R164, R187). -/
def Obligations.DrainCommand : Prop :=
  ∀ s : State, s.resetLine = false →
    (s.part = .running → ∃ t, exec .drain s = .next t ∧
      (∀ e : EntryId, (entryLive s.entries[e] = false → t.entries[e] = s.entries[e]) ∧
        (entryLive s.entries[e] = true →
          (∀ r, r ∈ t.entries[e].reasons ↔ r = .drainCmd ∨ r ∈ s.entries[e].reasons) ∧
          t.entries[e] = { s.entries[e] with
            state := .drainPending, reasons := t.entries[e].reasons
            demandTime := some (s.entries[e].demandTime.getD s.timeBase) })) ∧
      (emptyConditions s = false → t.part = .draining ∧ t.causes = s.causes ∧
        t.mgmt = some { status := .done, value := 1 }) ∧
      (emptyConditions s = true → t.part = .quiescent ∧ t.causes = { s.causes with drained := true } ∧
        t.mgmt = some { status := .done, value := 2 }) ∧
      t = { s with part := t.part, entries := t.entries, causes := t.causes, mgmt := t.mgmt }) ∧
    (s.part = .draining → exec .drain s = .next { s with mgmt := some { status := .done, value := 1 } }) ∧
    (s.part = .quiescent → exec .drain s = .next { s with mgmt := some { status := .done, value := 2 } }) ∧
    (s.part = .restarting → exec .drain s = .next { s with mgmt := some { status := .busy, value := 0 } })

/-- RESUME returns a DRAINING or QUIESCENT part to RUNNING, leaving the DRAIN_CMD reasons and raising nothing; in RUNNING it
changes nothing; in RESTARTING it answers BUSY (R166, R188). -/
def Obligations.ResumeCommand : Prop :=
  ∀ s : State, s.resetLine = false →
    (s.part ≠ .restarting →
      exec .resume s = .next { s with part := .running, mgmt := some { status := .done, value := 0 } }) ∧
    (s.part = .restarting → exec .resume s = .next { s with mgmt := some { status := .busy, value := 0 } })

/-- RESTART in RESTARTING answers BUSY (R162, R189). Elsewhere: QUEUED and WAIT_DRAIN slots are DONE with ERR_ABORT and
ISSUED ones marked; every entry not yet granted its drain is discarded and a DISCARDED record is handed for it, in
ascending order, which raises FAULT_RECORDED or FAULT_OVERFLOW; the line of a discarded entry has no line entry, and in
states that meet `MergeLaw` what remains is one line entry with an empty list for each DRAINING entry; urgency cleared;
WAITING fences complete with FENCE_FAULTED or ERR_ABORT; references join slots first; the empty conditions are judged. Every
other alert cause, the tags, the configuration sets, the epoch, the counters and the refill count stay (R43, R61, R73, R101,
R123, R153, R157, R167, R170, R171, R197). What a discarded entry's data, mask, window, epoch and first-merge time then hold
is the model's choice (log 15). -/
def Obligations.RestartCommand : Prop :=
  ∀ s : State, s.resetLine = false →
    (s.part = .restarting → exec .restart s = .next { s with mgmt := some { status := .busy, value := 0 } }) ∧
    (s.part ≠ .restarting →
    let live (e : EntryId) : Bool := entryLive s.entries[e]
    let ended (i : SlotId) : Bool := s.slots[i].state == .queued || s.slots[i].state == .waitDrain
    let lost (k : FenceId) : Prop := s.fences[k].faulted = true ∨ ∃ e, live e = true ∧ e ∈ s.fences[k].waitEntries ∧
      s.entries[e].contributors[s.fences[k].initiator] = some .posted
    ∃ t, exec .restart s = .next t ∧
      (∀ i : SlotId, t.slots[i] =
        if ended i then { s.slots[i] with state := .done, status := some .errAbort, effCls := none }
        else if s.slots[i].state = .issued then { s.slots[i] with abort := true } else s.slots[i]) ∧
      (∀ k : ClassId, t.queues[k] = [] ∧ t.urgent[k] = false) ∧
      (∀ e : EntryId, t.entries[e] = if live e then MergeEntry.free else { s.entries[e] with waiting := [] }) ∧
      (∀ l ∈ t.lines, l.list = [] ∧ l.mergeRef.isSome = true) ∧
      (∀ e : EntryId, live e = true → findLine t s.entries[e].line = none) ∧
      (MergeLaw s → ∀ l : LineEntry, l ∈ t.lines ↔ ∃ e : EntryId, s.entries[e].state = .draining ∧
        l = { line := s.entries[e].line, list := [], mergeRef := some e }) ∧
      (∀ k : FenceId, s.fences[k].state ≠ .waiting → t.fences[k] = s.fences[k]) ∧
      (∀ k : FenceId, s.fences[k].state = .waiting →
        (t.fences[k].faulted = true ↔ lost k) ∧
        t.fences[k] = { s.fences[k] with
          state := .completed, waitSlots := [], waitFences := [], waitEntries := [], faulted := t.fences[k].faulted
          status := some (if t.fences[k].faulted then .fenceFaulted else .errAbort) }) ∧
      RecordsHanded s t
        (((List.finRange 16).filter live).map (fun e => entryLoss .discarded s.entries[e] s.timeBase)) ∧
      t.responses = s.responses ++ (s.arrival.filter ended).map .slot ++
        (s.fenceOrder.filter (fun k => s.fences[k].state == .waiting)).map .fence ∧
      (¬ NothingHeld t → t.part = .restarting ∧ t.balances = s.balances ∧ t.pointer = s.pointer ∧
        t.causes.restarted = s.causes.restarted ∧ t.mgmt = some { status := .done, value := 3 }) ∧
      (NothingHeld t → t.part = .running ∧ (∀ k : ClassId, t.balances[k] = s.active.classes[k].ceiling.toNat) ∧
        t.pointer = 0 ∧ t.causes.restarted = true ∧ t.mgmt = some { status := .done, value := 0 }) ∧
      t.causes = { s.causes with
        faultRecorded := t.causes.faultRecorded, faultOverflow := t.causes.faultOverflow
        restarted := t.causes.restarted } ∧
      t = { s with
        part := t.part, slots := t.slots, queues := t.queues, entries := t.entries, lines := t.lines
        urgent := t.urgent, fences := t.fences, faults := t.faults, overflow := t.overflow, causes := t.causes
        responses := t.responses, balances := t.balances, pointer := t.pointer, mgmt := t.mgmt })

/-- The transitions of the part state (R161) and what each asks and raises (R163, R164, R166, R167, R170, R171). -/
def Obligations.PartStateTransitions : Prop :=
  ∀ (c : Instr) (s t : State), exec c s = .next t →
    match s.part, t.part with
    | .running, .running | .draining, .draining | .quiescent, .quiescent | .restarting, .restarting => True
    | .running, .draining => c = .drain
    | .running, .quiescent => c = .drain ∧ emptyConditions t = true ∧ t.causes.drained = true
    | .running, .restarting | .draining, .restarting | .quiescent, .restarting => c = .restart
    | .draining, .quiescent => emptyConditions t = true ∧ t.causes.drained = true
    | .draining, .running | .quiescent, .running => c = .resume ∨ c = .restart ∨ c = .hardReset
    | .restarting, .running =>
        c = .hardReset ∨ (emptyConditions t = true ∧ t.causes.restarted = true ∧ t.pointer = 0 ∧
          ∀ k : ClassId, t.balances[k] = ceiling s.active k)
    | .quiescent, .draining | .restarting, .draining | .restarting, .quiescent => False

/-! ## Laws that every step keeps -/

/-- Every class's balance stays between −64 and its ceiling (R109). -/
def Obligations.StepKeepsCreditLaw : Prop := ∀ s t : State, CreditLaw s → step s = .next t → CreditLaw t

/-- The active set never holds a value that validation refuses, and the refill count never reaches the period that the last
step took, so that it is 0 to 4094 and no expiry falls between steps (R104, R106, R177; the period in force is log 6). -/
def Obligations.StepKeepsConfigLaw : Prop := ∀ s t : State, ConfigLaw s → step s = .next t → ConfigLaw t

/-- Every merge entry that is not FREE holds a lane and a posted contributor, an OPEN one no reason, a DRAIN_PENDING one at
least one, and a demand time exactly with a demanded reason; at most one holds PRESSURE (R75, R76, R84, R91, R94). -/
def Obligations.StepKeepsEntryLaw : Prop := ∀ s t : State, EntryLaw s → step s = .next t → EntryLaw t

/-- In QUIESCENT nothing is held, and every tag is FREE or QUARANTINED (R165). -/
def Obligations.StepKeepsQuiescentLaw : Prop := ∀ s t : State, QuiescentLaw s → step s = .next t → QuiescentLaw t

/-- The Deferred Fault List holds at most 8 records, and a nonzero overflow count stands only with 8 of them (R155, R157,
R158). -/
def Obligations.StepKeepsFaultListLaw : Prop := ∀ s t : State, FaultListLaw s → step s = .next t → FaultListLaw t

/-- A DRAINING or RESTARTING part is never empty, every entry that takes reasons in DRAINING holds DRAIN_CMD, and nothing in
RESTARTING can be granted (R95, R163, R164, R168, R170). -/
def Obligations.StepKeepsPartLaw : Prop := ∀ s t : State, PartLaw s → step s = .next t → PartLaw t

/-- No two merge entries that are not FREE hold the same line (R83), kept with what it rests on: a line's merge reference
names exactly the entry that is not FREE and holds the line (R57, R60), and no line entry is left with neither a slot nor a
reference (R59). -/
def Obligations.OneEntryForEachLine : Prop :=
  (∀ s t : State, MergeLaw s → step s = .next t → MergeLaw t) ∧
  (∀ (s : State) (e e' : EntryId), MergeLaw s → s.entries[e].state ≠ .free → s.entries[e'].state ≠ .free →
    s.entries[e].line = s.entries[e'].line → e = e')

/-- The arrival list holds the live slots, each once (R45); the Response Queue references exactly the DONE slots not yet
delivered, the COMPLETED fences and the HELD refusal records, each once and each with its status (R14, R15, R18); kept with
the references they rest on. -/
def Obligations.StepKeepsStoreLaw : Prop := ∀ s t : State, StoreLaw s → step s = .next t → StoreLaw t

/-- Each class queue holds the QUEUED slots of its class and each line list those of its line, in arrival order, and every
QUEUED slot holds the effective class of R68 (R47, R57, R68, R69); and each tag of the Tag Table belongs to one live
request not yet answered (R12). Each is kept with the law of the arrival list. -/
def Obligations.StepKeepsQueueAndTagLaws : Prop :=
  (∀ s t : State, StoreLaw s → QueueLaw s → step s = .next t → QueueLaw t) ∧
  (∀ s t : State, StoreLaw s → TagLaw s → step s = .next t → TagLaw t)

/-- No command changes what a slot took with it at acceptance while the slot stays live (R32, R36). -/
def Obligations.CapturedFieldsStay : Prop :=
  ∀ (c : Instr) (s t : State) (i : SlotId), exec c s = .next t → s.slots[i].state ≠ .free →
    t.slots[i].state ≠ .free → SameCapture s.slots[i] t.slots[i]

/-- Which commands alone change which state: the active set and the epoch (R180, R184), the staged set (R180), the fault
readout (R158), SHORT_FRAME (R175), the time base (R195), the Tag Table (R12), the refusal records (R13), the class
queues (R47), the refill count (R106), the Memory issue group (R130) and HOLD (R141). The period in force is a field of the
model's own, and that REFILL_EXPIRY may change the refill count apart from a step is the model's too (log 6). -/
def Obligations.StateChangesOnlyBy : Prop :=
  ∀ (c : Instr) (s t : State), exec c s = .next t → c ≠ .hardReset →
    (c ≠ .commit → t.active = s.active ∧ t.epoch = s.epoch) ∧
    (c ≠ .discardStaged → (∀ n v, c ≠ .writeItem n v) → t.staged = s.staged) ∧
    (c ≠ .takeFault → t.readout = s.readout) ∧
    (c ≠ .shortFrame → (∀ n, c ≠ .readItem n) → (∀ n, c ≠ .status n) → t.shortFrame = s.shortFrame) ∧
    (c ≠ .timeBaseStep → t.timeBase = s.timeBase) ∧
    (c ≠ .timeBaseStep → t.periodInForce = s.periodInForce) ∧
    (c ≠ .timeBaseStep → c ≠ .refillExpiry → t.refillCount = s.refillCount) ∧
    ((∀ r, c ≠ .presentation r) → c ≠ .delivery → t.tagTable = s.tagTable ∧ t.refusals = s.refusals) ∧
    ((∀ r, c ≠ .presentation r) → c ≠ .grant → c ≠ .restart → t.queues = s.queues) ∧
    (c ≠ .grant → c ≠ .drainGrant → t.issued = s.issued) ∧
    ((∀ l, c ≠ .hold l) → t.holdLine = s.holdLine)
end

