-- ==== Sys2Proof/Laws/State.lean ====
section
/-! SUPPORT. One lemma per field per update of State, each true by rfl, so that no proof unfolds a record
update. -/

namespace Sys2Proof.Machine

variable (s : State)

@[simp] theorem setResetLine_resetLine (x) : (setResetLine s x).resetLine = x := rfl
@[simp] theorem setResetLine_holdLine (x) : (setResetLine s x).holdLine = s.holdLine := rfl
@[simp] theorem setResetLine_part (x) : (setResetLine s x).part = s.part := rfl
@[simp] theorem setResetLine_tagTable (x) : (setResetLine s x).tagTable = s.tagTable := rfl
@[simp] theorem setResetLine_refusals (x) : (setResetLine s x).refusals = s.refusals := rfl
@[simp] theorem setResetLine_slots (x) : (setResetLine s x).slots = s.slots := rfl
@[simp] theorem setResetLine_arrival (x) : (setResetLine s x).arrival = s.arrival := rfl
@[simp] theorem setResetLine_queues (x) : (setResetLine s x).queues = s.queues := rfl
@[simp] theorem setResetLine_lines (x) : (setResetLine s x).lines = s.lines := rfl
@[simp] theorem setResetLine_entries (x) : (setResetLine s x).entries = s.entries := rfl
@[simp] theorem setResetLine_balances (x) : (setResetLine s x).balances = s.balances := rfl
@[simp] theorem setResetLine_refillCount (x) : (setResetLine s x).refillCount = s.refillCount := rfl
@[simp] theorem setResetLine_periodInForce (x) : (setResetLine s x).periodInForce = s.periodInForce := rfl
@[simp] theorem setResetLine_urgent (x) : (setResetLine s x).urgent = s.urgent := rfl
@[simp] theorem setResetLine_pointer (x) : (setResetLine s x).pointer = s.pointer := rfl
@[simp] theorem setResetLine_tags (x) : (setResetLine s x).tags = s.tags := rfl
@[simp] theorem setResetLine_fences (x) : (setResetLine s x).fences = s.fences := rfl
@[simp] theorem setResetLine_fenceOrder (x) : (setResetLine s x).fenceOrder = s.fenceOrder := rfl
@[simp] theorem setResetLine_faults (x) : (setResetLine s x).faults = s.faults := rfl
@[simp] theorem setResetLine_overflow (x) : (setResetLine s x).overflow = s.overflow := rfl
@[simp] theorem setResetLine_readout (x) : (setResetLine s x).readout = s.readout := rfl
@[simp] theorem setResetLine_responses (x) : (setResetLine s x).responses = s.responses := rfl
@[simp] theorem setResetLine_staged (x) : (setResetLine s x).staged = s.staged := rfl
@[simp] theorem setResetLine_active (x) : (setResetLine s x).active = s.active := rfl
@[simp] theorem setResetLine_epoch (x) : (setResetLine s x).epoch = s.epoch := rfl
@[simp] theorem setResetLine_shortFrame (x) : (setResetLine s x).shortFrame = s.shortFrame := rfl
@[simp] theorem setResetLine_timeBase (x) : (setResetLine s x).timeBase = s.timeBase := rfl
@[simp] theorem setResetLine_causes (x) : (setResetLine s x).causes = s.causes := rfl
@[simp] theorem setResetLine_counters (x) : (setResetLine s x).counters = s.counters := rfl
@[simp] theorem setResetLine_answer (x) : (setResetLine s x).answer = s.answer := rfl
@[simp] theorem setResetLine_issued (x) : (setResetLine s x).issued = s.issued := rfl
@[simp] theorem setResetLine_taken (x) : (setResetLine s x).taken = s.taken := rfl
@[simp] theorem setResetLine_mgmt (x) : (setResetLine s x).mgmt = s.mgmt := rfl
@[simp] theorem setResetLine_pending (x) : (setResetLine s x).pending = s.pending := rfl

@[simp] theorem setHoldLine_resetLine (x) : (setHoldLine s x).resetLine = s.resetLine := rfl
@[simp] theorem setHoldLine_holdLine (x) : (setHoldLine s x).holdLine = x := rfl
@[simp] theorem setHoldLine_part (x) : (setHoldLine s x).part = s.part := rfl
@[simp] theorem setHoldLine_tagTable (x) : (setHoldLine s x).tagTable = s.tagTable := rfl
@[simp] theorem setHoldLine_refusals (x) : (setHoldLine s x).refusals = s.refusals := rfl
@[simp] theorem setHoldLine_slots (x) : (setHoldLine s x).slots = s.slots := rfl
@[simp] theorem setHoldLine_arrival (x) : (setHoldLine s x).arrival = s.arrival := rfl
@[simp] theorem setHoldLine_queues (x) : (setHoldLine s x).queues = s.queues := rfl
@[simp] theorem setHoldLine_lines (x) : (setHoldLine s x).lines = s.lines := rfl
@[simp] theorem setHoldLine_entries (x) : (setHoldLine s x).entries = s.entries := rfl
@[simp] theorem setHoldLine_balances (x) : (setHoldLine s x).balances = s.balances := rfl
@[simp] theorem setHoldLine_refillCount (x) : (setHoldLine s x).refillCount = s.refillCount := rfl
@[simp] theorem setHoldLine_periodInForce (x) : (setHoldLine s x).periodInForce = s.periodInForce := rfl
@[simp] theorem setHoldLine_urgent (x) : (setHoldLine s x).urgent = s.urgent := rfl
@[simp] theorem setHoldLine_pointer (x) : (setHoldLine s x).pointer = s.pointer := rfl
@[simp] theorem setHoldLine_tags (x) : (setHoldLine s x).tags = s.tags := rfl
@[simp] theorem setHoldLine_fences (x) : (setHoldLine s x).fences = s.fences := rfl
@[simp] theorem setHoldLine_fenceOrder (x) : (setHoldLine s x).fenceOrder = s.fenceOrder := rfl
@[simp] theorem setHoldLine_faults (x) : (setHoldLine s x).faults = s.faults := rfl
@[simp] theorem setHoldLine_overflow (x) : (setHoldLine s x).overflow = s.overflow := rfl
@[simp] theorem setHoldLine_readout (x) : (setHoldLine s x).readout = s.readout := rfl
@[simp] theorem setHoldLine_responses (x) : (setHoldLine s x).responses = s.responses := rfl
@[simp] theorem setHoldLine_staged (x) : (setHoldLine s x).staged = s.staged := rfl
@[simp] theorem setHoldLine_active (x) : (setHoldLine s x).active = s.active := rfl
@[simp] theorem setHoldLine_epoch (x) : (setHoldLine s x).epoch = s.epoch := rfl
@[simp] theorem setHoldLine_shortFrame (x) : (setHoldLine s x).shortFrame = s.shortFrame := rfl
@[simp] theorem setHoldLine_timeBase (x) : (setHoldLine s x).timeBase = s.timeBase := rfl
@[simp] theorem setHoldLine_causes (x) : (setHoldLine s x).causes = s.causes := rfl
@[simp] theorem setHoldLine_counters (x) : (setHoldLine s x).counters = s.counters := rfl
@[simp] theorem setHoldLine_answer (x) : (setHoldLine s x).answer = s.answer := rfl
@[simp] theorem setHoldLine_issued (x) : (setHoldLine s x).issued = s.issued := rfl
@[simp] theorem setHoldLine_taken (x) : (setHoldLine s x).taken = s.taken := rfl
@[simp] theorem setHoldLine_mgmt (x) : (setHoldLine s x).mgmt = s.mgmt := rfl
@[simp] theorem setHoldLine_pending (x) : (setHoldLine s x).pending = s.pending := rfl

@[simp] theorem setPart_resetLine (x) : (setPart s x).resetLine = s.resetLine := rfl
@[simp] theorem setPart_holdLine (x) : (setPart s x).holdLine = s.holdLine := rfl
@[simp] theorem setPart_part (x) : (setPart s x).part = x := rfl
@[simp] theorem setPart_tagTable (x) : (setPart s x).tagTable = s.tagTable := rfl
@[simp] theorem setPart_refusals (x) : (setPart s x).refusals = s.refusals := rfl
@[simp] theorem setPart_slots (x) : (setPart s x).slots = s.slots := rfl
@[simp] theorem setPart_arrival (x) : (setPart s x).arrival = s.arrival := rfl
@[simp] theorem setPart_queues (x) : (setPart s x).queues = s.queues := rfl
@[simp] theorem setPart_lines (x) : (setPart s x).lines = s.lines := rfl
@[simp] theorem setPart_entries (x) : (setPart s x).entries = s.entries := rfl
@[simp] theorem setPart_balances (x) : (setPart s x).balances = s.balances := rfl
@[simp] theorem setPart_refillCount (x) : (setPart s x).refillCount = s.refillCount := rfl
@[simp] theorem setPart_periodInForce (x) : (setPart s x).periodInForce = s.periodInForce := rfl
@[simp] theorem setPart_urgent (x) : (setPart s x).urgent = s.urgent := rfl
@[simp] theorem setPart_pointer (x) : (setPart s x).pointer = s.pointer := rfl
@[simp] theorem setPart_tags (x) : (setPart s x).tags = s.tags := rfl
@[simp] theorem setPart_fences (x) : (setPart s x).fences = s.fences := rfl
@[simp] theorem setPart_fenceOrder (x) : (setPart s x).fenceOrder = s.fenceOrder := rfl
@[simp] theorem setPart_faults (x) : (setPart s x).faults = s.faults := rfl
@[simp] theorem setPart_overflow (x) : (setPart s x).overflow = s.overflow := rfl
@[simp] theorem setPart_readout (x) : (setPart s x).readout = s.readout := rfl
@[simp] theorem setPart_responses (x) : (setPart s x).responses = s.responses := rfl
@[simp] theorem setPart_staged (x) : (setPart s x).staged = s.staged := rfl
@[simp] theorem setPart_active (x) : (setPart s x).active = s.active := rfl
@[simp] theorem setPart_epoch (x) : (setPart s x).epoch = s.epoch := rfl
@[simp] theorem setPart_shortFrame (x) : (setPart s x).shortFrame = s.shortFrame := rfl
@[simp] theorem setPart_timeBase (x) : (setPart s x).timeBase = s.timeBase := rfl
@[simp] theorem setPart_causes (x) : (setPart s x).causes = s.causes := rfl
@[simp] theorem setPart_counters (x) : (setPart s x).counters = s.counters := rfl
@[simp] theorem setPart_answer (x) : (setPart s x).answer = s.answer := rfl
@[simp] theorem setPart_issued (x) : (setPart s x).issued = s.issued := rfl
@[simp] theorem setPart_taken (x) : (setPart s x).taken = s.taken := rfl
@[simp] theorem setPart_mgmt (x) : (setPart s x).mgmt = s.mgmt := rfl
@[simp] theorem setPart_pending (x) : (setPart s x).pending = s.pending := rfl

@[simp] theorem setTagTable_resetLine (x) : (setTagTable s x).resetLine = s.resetLine := rfl
@[simp] theorem setTagTable_holdLine (x) : (setTagTable s x).holdLine = s.holdLine := rfl
@[simp] theorem setTagTable_part (x) : (setTagTable s x).part = s.part := rfl
@[simp] theorem setTagTable_tagTable (x) : (setTagTable s x).tagTable = x := rfl
@[simp] theorem setTagTable_refusals (x) : (setTagTable s x).refusals = s.refusals := rfl
@[simp] theorem setTagTable_slots (x) : (setTagTable s x).slots = s.slots := rfl
@[simp] theorem setTagTable_arrival (x) : (setTagTable s x).arrival = s.arrival := rfl
@[simp] theorem setTagTable_queues (x) : (setTagTable s x).queues = s.queues := rfl
@[simp] theorem setTagTable_lines (x) : (setTagTable s x).lines = s.lines := rfl
@[simp] theorem setTagTable_entries (x) : (setTagTable s x).entries = s.entries := rfl
@[simp] theorem setTagTable_balances (x) : (setTagTable s x).balances = s.balances := rfl
@[simp] theorem setTagTable_refillCount (x) : (setTagTable s x).refillCount = s.refillCount := rfl
@[simp] theorem setTagTable_periodInForce (x) : (setTagTable s x).periodInForce = s.periodInForce := rfl
@[simp] theorem setTagTable_urgent (x) : (setTagTable s x).urgent = s.urgent := rfl
@[simp] theorem setTagTable_pointer (x) : (setTagTable s x).pointer = s.pointer := rfl
@[simp] theorem setTagTable_tags (x) : (setTagTable s x).tags = s.tags := rfl
@[simp] theorem setTagTable_fences (x) : (setTagTable s x).fences = s.fences := rfl
@[simp] theorem setTagTable_fenceOrder (x) : (setTagTable s x).fenceOrder = s.fenceOrder := rfl
@[simp] theorem setTagTable_faults (x) : (setTagTable s x).faults = s.faults := rfl
@[simp] theorem setTagTable_overflow (x) : (setTagTable s x).overflow = s.overflow := rfl
@[simp] theorem setTagTable_readout (x) : (setTagTable s x).readout = s.readout := rfl
@[simp] theorem setTagTable_responses (x) : (setTagTable s x).responses = s.responses := rfl
@[simp] theorem setTagTable_staged (x) : (setTagTable s x).staged = s.staged := rfl
@[simp] theorem setTagTable_active (x) : (setTagTable s x).active = s.active := rfl
@[simp] theorem setTagTable_epoch (x) : (setTagTable s x).epoch = s.epoch := rfl
@[simp] theorem setTagTable_shortFrame (x) : (setTagTable s x).shortFrame = s.shortFrame := rfl
@[simp] theorem setTagTable_timeBase (x) : (setTagTable s x).timeBase = s.timeBase := rfl
@[simp] theorem setTagTable_causes (x) : (setTagTable s x).causes = s.causes := rfl
@[simp] theorem setTagTable_counters (x) : (setTagTable s x).counters = s.counters := rfl
@[simp] theorem setTagTable_answer (x) : (setTagTable s x).answer = s.answer := rfl
@[simp] theorem setTagTable_issued (x) : (setTagTable s x).issued = s.issued := rfl
@[simp] theorem setTagTable_taken (x) : (setTagTable s x).taken = s.taken := rfl
@[simp] theorem setTagTable_mgmt (x) : (setTagTable s x).mgmt = s.mgmt := rfl
@[simp] theorem setTagTable_pending (x) : (setTagTable s x).pending = s.pending := rfl

@[simp] theorem setRefusals_resetLine (x) : (setRefusals s x).resetLine = s.resetLine := rfl
@[simp] theorem setRefusals_holdLine (x) : (setRefusals s x).holdLine = s.holdLine := rfl
@[simp] theorem setRefusals_part (x) : (setRefusals s x).part = s.part := rfl
@[simp] theorem setRefusals_tagTable (x) : (setRefusals s x).tagTable = s.tagTable := rfl
@[simp] theorem setRefusals_refusals (x) : (setRefusals s x).refusals = x := rfl
@[simp] theorem setRefusals_slots (x) : (setRefusals s x).slots = s.slots := rfl
@[simp] theorem setRefusals_arrival (x) : (setRefusals s x).arrival = s.arrival := rfl
@[simp] theorem setRefusals_queues (x) : (setRefusals s x).queues = s.queues := rfl
@[simp] theorem setRefusals_lines (x) : (setRefusals s x).lines = s.lines := rfl
@[simp] theorem setRefusals_entries (x) : (setRefusals s x).entries = s.entries := rfl
@[simp] theorem setRefusals_balances (x) : (setRefusals s x).balances = s.balances := rfl
@[simp] theorem setRefusals_refillCount (x) : (setRefusals s x).refillCount = s.refillCount := rfl
@[simp] theorem setRefusals_periodInForce (x) : (setRefusals s x).periodInForce = s.periodInForce := rfl
@[simp] theorem setRefusals_urgent (x) : (setRefusals s x).urgent = s.urgent := rfl
@[simp] theorem setRefusals_pointer (x) : (setRefusals s x).pointer = s.pointer := rfl
@[simp] theorem setRefusals_tags (x) : (setRefusals s x).tags = s.tags := rfl
@[simp] theorem setRefusals_fences (x) : (setRefusals s x).fences = s.fences := rfl
@[simp] theorem setRefusals_fenceOrder (x) : (setRefusals s x).fenceOrder = s.fenceOrder := rfl
@[simp] theorem setRefusals_faults (x) : (setRefusals s x).faults = s.faults := rfl
@[simp] theorem setRefusals_overflow (x) : (setRefusals s x).overflow = s.overflow := rfl
@[simp] theorem setRefusals_readout (x) : (setRefusals s x).readout = s.readout := rfl
@[simp] theorem setRefusals_responses (x) : (setRefusals s x).responses = s.responses := rfl
@[simp] theorem setRefusals_staged (x) : (setRefusals s x).staged = s.staged := rfl
@[simp] theorem setRefusals_active (x) : (setRefusals s x).active = s.active := rfl
@[simp] theorem setRefusals_epoch (x) : (setRefusals s x).epoch = s.epoch := rfl
@[simp] theorem setRefusals_shortFrame (x) : (setRefusals s x).shortFrame = s.shortFrame := rfl
@[simp] theorem setRefusals_timeBase (x) : (setRefusals s x).timeBase = s.timeBase := rfl
@[simp] theorem setRefusals_causes (x) : (setRefusals s x).causes = s.causes := rfl
@[simp] theorem setRefusals_counters (x) : (setRefusals s x).counters = s.counters := rfl
@[simp] theorem setRefusals_answer (x) : (setRefusals s x).answer = s.answer := rfl
@[simp] theorem setRefusals_issued (x) : (setRefusals s x).issued = s.issued := rfl
@[simp] theorem setRefusals_taken (x) : (setRefusals s x).taken = s.taken := rfl
@[simp] theorem setRefusals_mgmt (x) : (setRefusals s x).mgmt = s.mgmt := rfl
@[simp] theorem setRefusals_pending (x) : (setRefusals s x).pending = s.pending := rfl

@[simp] theorem setSlots_resetLine (x) : (setSlots s x).resetLine = s.resetLine := rfl
@[simp] theorem setSlots_holdLine (x) : (setSlots s x).holdLine = s.holdLine := rfl
@[simp] theorem setSlots_part (x) : (setSlots s x).part = s.part := rfl
@[simp] theorem setSlots_tagTable (x) : (setSlots s x).tagTable = s.tagTable := rfl
@[simp] theorem setSlots_refusals (x) : (setSlots s x).refusals = s.refusals := rfl
@[simp] theorem setSlots_slots (x) : (setSlots s x).slots = x := rfl
@[simp] theorem setSlots_arrival (x) : (setSlots s x).arrival = s.arrival := rfl
@[simp] theorem setSlots_queues (x) : (setSlots s x).queues = s.queues := rfl
@[simp] theorem setSlots_lines (x) : (setSlots s x).lines = s.lines := rfl
@[simp] theorem setSlots_entries (x) : (setSlots s x).entries = s.entries := rfl
@[simp] theorem setSlots_balances (x) : (setSlots s x).balances = s.balances := rfl
@[simp] theorem setSlots_refillCount (x) : (setSlots s x).refillCount = s.refillCount := rfl
@[simp] theorem setSlots_periodInForce (x) : (setSlots s x).periodInForce = s.periodInForce := rfl
@[simp] theorem setSlots_urgent (x) : (setSlots s x).urgent = s.urgent := rfl
@[simp] theorem setSlots_pointer (x) : (setSlots s x).pointer = s.pointer := rfl
@[simp] theorem setSlots_tags (x) : (setSlots s x).tags = s.tags := rfl
@[simp] theorem setSlots_fences (x) : (setSlots s x).fences = s.fences := rfl
@[simp] theorem setSlots_fenceOrder (x) : (setSlots s x).fenceOrder = s.fenceOrder := rfl
@[simp] theorem setSlots_faults (x) : (setSlots s x).faults = s.faults := rfl
@[simp] theorem setSlots_overflow (x) : (setSlots s x).overflow = s.overflow := rfl
@[simp] theorem setSlots_readout (x) : (setSlots s x).readout = s.readout := rfl
@[simp] theorem setSlots_responses (x) : (setSlots s x).responses = s.responses := rfl
@[simp] theorem setSlots_staged (x) : (setSlots s x).staged = s.staged := rfl
@[simp] theorem setSlots_active (x) : (setSlots s x).active = s.active := rfl
@[simp] theorem setSlots_epoch (x) : (setSlots s x).epoch = s.epoch := rfl
@[simp] theorem setSlots_shortFrame (x) : (setSlots s x).shortFrame = s.shortFrame := rfl
@[simp] theorem setSlots_timeBase (x) : (setSlots s x).timeBase = s.timeBase := rfl
@[simp] theorem setSlots_causes (x) : (setSlots s x).causes = s.causes := rfl
@[simp] theorem setSlots_counters (x) : (setSlots s x).counters = s.counters := rfl
@[simp] theorem setSlots_answer (x) : (setSlots s x).answer = s.answer := rfl
@[simp] theorem setSlots_issued (x) : (setSlots s x).issued = s.issued := rfl
@[simp] theorem setSlots_taken (x) : (setSlots s x).taken = s.taken := rfl
@[simp] theorem setSlots_mgmt (x) : (setSlots s x).mgmt = s.mgmt := rfl
@[simp] theorem setSlots_pending (x) : (setSlots s x).pending = s.pending := rfl

@[simp] theorem setArrival_resetLine (x) : (setArrival s x).resetLine = s.resetLine := rfl
@[simp] theorem setArrival_holdLine (x) : (setArrival s x).holdLine = s.holdLine := rfl
@[simp] theorem setArrival_part (x) : (setArrival s x).part = s.part := rfl
@[simp] theorem setArrival_tagTable (x) : (setArrival s x).tagTable = s.tagTable := rfl
@[simp] theorem setArrival_refusals (x) : (setArrival s x).refusals = s.refusals := rfl
@[simp] theorem setArrival_slots (x) : (setArrival s x).slots = s.slots := rfl
@[simp] theorem setArrival_arrival (x) : (setArrival s x).arrival = x := rfl
@[simp] theorem setArrival_queues (x) : (setArrival s x).queues = s.queues := rfl
@[simp] theorem setArrival_lines (x) : (setArrival s x).lines = s.lines := rfl
@[simp] theorem setArrival_entries (x) : (setArrival s x).entries = s.entries := rfl
@[simp] theorem setArrival_balances (x) : (setArrival s x).balances = s.balances := rfl
@[simp] theorem setArrival_refillCount (x) : (setArrival s x).refillCount = s.refillCount := rfl
@[simp] theorem setArrival_periodInForce (x) : (setArrival s x).periodInForce = s.periodInForce := rfl
@[simp] theorem setArrival_urgent (x) : (setArrival s x).urgent = s.urgent := rfl
@[simp] theorem setArrival_pointer (x) : (setArrival s x).pointer = s.pointer := rfl
@[simp] theorem setArrival_tags (x) : (setArrival s x).tags = s.tags := rfl
@[simp] theorem setArrival_fences (x) : (setArrival s x).fences = s.fences := rfl
@[simp] theorem setArrival_fenceOrder (x) : (setArrival s x).fenceOrder = s.fenceOrder := rfl
@[simp] theorem setArrival_faults (x) : (setArrival s x).faults = s.faults := rfl
@[simp] theorem setArrival_overflow (x) : (setArrival s x).overflow = s.overflow := rfl
@[simp] theorem setArrival_readout (x) : (setArrival s x).readout = s.readout := rfl
@[simp] theorem setArrival_responses (x) : (setArrival s x).responses = s.responses := rfl
@[simp] theorem setArrival_staged (x) : (setArrival s x).staged = s.staged := rfl
@[simp] theorem setArrival_active (x) : (setArrival s x).active = s.active := rfl
@[simp] theorem setArrival_epoch (x) : (setArrival s x).epoch = s.epoch := rfl
@[simp] theorem setArrival_shortFrame (x) : (setArrival s x).shortFrame = s.shortFrame := rfl
@[simp] theorem setArrival_timeBase (x) : (setArrival s x).timeBase = s.timeBase := rfl
@[simp] theorem setArrival_causes (x) : (setArrival s x).causes = s.causes := rfl
@[simp] theorem setArrival_counters (x) : (setArrival s x).counters = s.counters := rfl
@[simp] theorem setArrival_answer (x) : (setArrival s x).answer = s.answer := rfl
@[simp] theorem setArrival_issued (x) : (setArrival s x).issued = s.issued := rfl
@[simp] theorem setArrival_taken (x) : (setArrival s x).taken = s.taken := rfl
@[simp] theorem setArrival_mgmt (x) : (setArrival s x).mgmt = s.mgmt := rfl
@[simp] theorem setArrival_pending (x) : (setArrival s x).pending = s.pending := rfl

@[simp] theorem setQueues_resetLine (x) : (setQueues s x).resetLine = s.resetLine := rfl
@[simp] theorem setQueues_holdLine (x) : (setQueues s x).holdLine = s.holdLine := rfl
@[simp] theorem setQueues_part (x) : (setQueues s x).part = s.part := rfl
@[simp] theorem setQueues_tagTable (x) : (setQueues s x).tagTable = s.tagTable := rfl
@[simp] theorem setQueues_refusals (x) : (setQueues s x).refusals = s.refusals := rfl
@[simp] theorem setQueues_slots (x) : (setQueues s x).slots = s.slots := rfl
@[simp] theorem setQueues_arrival (x) : (setQueues s x).arrival = s.arrival := rfl
@[simp] theorem setQueues_queues (x) : (setQueues s x).queues = x := rfl
@[simp] theorem setQueues_lines (x) : (setQueues s x).lines = s.lines := rfl
@[simp] theorem setQueues_entries (x) : (setQueues s x).entries = s.entries := rfl
@[simp] theorem setQueues_balances (x) : (setQueues s x).balances = s.balances := rfl
@[simp] theorem setQueues_refillCount (x) : (setQueues s x).refillCount = s.refillCount := rfl
@[simp] theorem setQueues_periodInForce (x) : (setQueues s x).periodInForce = s.periodInForce := rfl
@[simp] theorem setQueues_urgent (x) : (setQueues s x).urgent = s.urgent := rfl
@[simp] theorem setQueues_pointer (x) : (setQueues s x).pointer = s.pointer := rfl
@[simp] theorem setQueues_tags (x) : (setQueues s x).tags = s.tags := rfl
@[simp] theorem setQueues_fences (x) : (setQueues s x).fences = s.fences := rfl
@[simp] theorem setQueues_fenceOrder (x) : (setQueues s x).fenceOrder = s.fenceOrder := rfl
@[simp] theorem setQueues_faults (x) : (setQueues s x).faults = s.faults := rfl
@[simp] theorem setQueues_overflow (x) : (setQueues s x).overflow = s.overflow := rfl
@[simp] theorem setQueues_readout (x) : (setQueues s x).readout = s.readout := rfl
@[simp] theorem setQueues_responses (x) : (setQueues s x).responses = s.responses := rfl
@[simp] theorem setQueues_staged (x) : (setQueues s x).staged = s.staged := rfl
@[simp] theorem setQueues_active (x) : (setQueues s x).active = s.active := rfl
@[simp] theorem setQueues_epoch (x) : (setQueues s x).epoch = s.epoch := rfl
@[simp] theorem setQueues_shortFrame (x) : (setQueues s x).shortFrame = s.shortFrame := rfl
@[simp] theorem setQueues_timeBase (x) : (setQueues s x).timeBase = s.timeBase := rfl
@[simp] theorem setQueues_causes (x) : (setQueues s x).causes = s.causes := rfl
@[simp] theorem setQueues_counters (x) : (setQueues s x).counters = s.counters := rfl
@[simp] theorem setQueues_answer (x) : (setQueues s x).answer = s.answer := rfl
@[simp] theorem setQueues_issued (x) : (setQueues s x).issued = s.issued := rfl
@[simp] theorem setQueues_taken (x) : (setQueues s x).taken = s.taken := rfl
@[simp] theorem setQueues_mgmt (x) : (setQueues s x).mgmt = s.mgmt := rfl
@[simp] theorem setQueues_pending (x) : (setQueues s x).pending = s.pending := rfl

@[simp] theorem setLines_resetLine (x) : (setLines s x).resetLine = s.resetLine := rfl
@[simp] theorem setLines_holdLine (x) : (setLines s x).holdLine = s.holdLine := rfl
@[simp] theorem setLines_part (x) : (setLines s x).part = s.part := rfl
@[simp] theorem setLines_tagTable (x) : (setLines s x).tagTable = s.tagTable := rfl
@[simp] theorem setLines_refusals (x) : (setLines s x).refusals = s.refusals := rfl
@[simp] theorem setLines_slots (x) : (setLines s x).slots = s.slots := rfl
@[simp] theorem setLines_arrival (x) : (setLines s x).arrival = s.arrival := rfl
@[simp] theorem setLines_queues (x) : (setLines s x).queues = s.queues := rfl
@[simp] theorem setLines_lines (x) : (setLines s x).lines = x := rfl
@[simp] theorem setLines_entries (x) : (setLines s x).entries = s.entries := rfl
@[simp] theorem setLines_balances (x) : (setLines s x).balances = s.balances := rfl
@[simp] theorem setLines_refillCount (x) : (setLines s x).refillCount = s.refillCount := rfl
@[simp] theorem setLines_periodInForce (x) : (setLines s x).periodInForce = s.periodInForce := rfl
@[simp] theorem setLines_urgent (x) : (setLines s x).urgent = s.urgent := rfl
@[simp] theorem setLines_pointer (x) : (setLines s x).pointer = s.pointer := rfl
@[simp] theorem setLines_tags (x) : (setLines s x).tags = s.tags := rfl
@[simp] theorem setLines_fences (x) : (setLines s x).fences = s.fences := rfl
@[simp] theorem setLines_fenceOrder (x) : (setLines s x).fenceOrder = s.fenceOrder := rfl
@[simp] theorem setLines_faults (x) : (setLines s x).faults = s.faults := rfl
@[simp] theorem setLines_overflow (x) : (setLines s x).overflow = s.overflow := rfl
@[simp] theorem setLines_readout (x) : (setLines s x).readout = s.readout := rfl
@[simp] theorem setLines_responses (x) : (setLines s x).responses = s.responses := rfl
@[simp] theorem setLines_staged (x) : (setLines s x).staged = s.staged := rfl
@[simp] theorem setLines_active (x) : (setLines s x).active = s.active := rfl
@[simp] theorem setLines_epoch (x) : (setLines s x).epoch = s.epoch := rfl
@[simp] theorem setLines_shortFrame (x) : (setLines s x).shortFrame = s.shortFrame := rfl
@[simp] theorem setLines_timeBase (x) : (setLines s x).timeBase = s.timeBase := rfl
@[simp] theorem setLines_causes (x) : (setLines s x).causes = s.causes := rfl
@[simp] theorem setLines_counters (x) : (setLines s x).counters = s.counters := rfl
@[simp] theorem setLines_answer (x) : (setLines s x).answer = s.answer := rfl
@[simp] theorem setLines_issued (x) : (setLines s x).issued = s.issued := rfl
@[simp] theorem setLines_taken (x) : (setLines s x).taken = s.taken := rfl
@[simp] theorem setLines_mgmt (x) : (setLines s x).mgmt = s.mgmt := rfl
@[simp] theorem setLines_pending (x) : (setLines s x).pending = s.pending := rfl

@[simp] theorem setEntries_resetLine (x) : (setEntries s x).resetLine = s.resetLine := rfl
@[simp] theorem setEntries_holdLine (x) : (setEntries s x).holdLine = s.holdLine := rfl
@[simp] theorem setEntries_part (x) : (setEntries s x).part = s.part := rfl
@[simp] theorem setEntries_tagTable (x) : (setEntries s x).tagTable = s.tagTable := rfl
@[simp] theorem setEntries_refusals (x) : (setEntries s x).refusals = s.refusals := rfl
@[simp] theorem setEntries_slots (x) : (setEntries s x).slots = s.slots := rfl
@[simp] theorem setEntries_arrival (x) : (setEntries s x).arrival = s.arrival := rfl
@[simp] theorem setEntries_queues (x) : (setEntries s x).queues = s.queues := rfl
@[simp] theorem setEntries_lines (x) : (setEntries s x).lines = s.lines := rfl
@[simp] theorem setEntries_entries (x) : (setEntries s x).entries = x := rfl
@[simp] theorem setEntries_balances (x) : (setEntries s x).balances = s.balances := rfl
@[simp] theorem setEntries_refillCount (x) : (setEntries s x).refillCount = s.refillCount := rfl
@[simp] theorem setEntries_periodInForce (x) : (setEntries s x).periodInForce = s.periodInForce := rfl
@[simp] theorem setEntries_urgent (x) : (setEntries s x).urgent = s.urgent := rfl
@[simp] theorem setEntries_pointer (x) : (setEntries s x).pointer = s.pointer := rfl
@[simp] theorem setEntries_tags (x) : (setEntries s x).tags = s.tags := rfl
@[simp] theorem setEntries_fences (x) : (setEntries s x).fences = s.fences := rfl
@[simp] theorem setEntries_fenceOrder (x) : (setEntries s x).fenceOrder = s.fenceOrder := rfl
@[simp] theorem setEntries_faults (x) : (setEntries s x).faults = s.faults := rfl
@[simp] theorem setEntries_overflow (x) : (setEntries s x).overflow = s.overflow := rfl
@[simp] theorem setEntries_readout (x) : (setEntries s x).readout = s.readout := rfl
@[simp] theorem setEntries_responses (x) : (setEntries s x).responses = s.responses := rfl
@[simp] theorem setEntries_staged (x) : (setEntries s x).staged = s.staged := rfl
@[simp] theorem setEntries_active (x) : (setEntries s x).active = s.active := rfl
@[simp] theorem setEntries_epoch (x) : (setEntries s x).epoch = s.epoch := rfl
@[simp] theorem setEntries_shortFrame (x) : (setEntries s x).shortFrame = s.shortFrame := rfl
@[simp] theorem setEntries_timeBase (x) : (setEntries s x).timeBase = s.timeBase := rfl
@[simp] theorem setEntries_causes (x) : (setEntries s x).causes = s.causes := rfl
@[simp] theorem setEntries_counters (x) : (setEntries s x).counters = s.counters := rfl
@[simp] theorem setEntries_answer (x) : (setEntries s x).answer = s.answer := rfl
@[simp] theorem setEntries_issued (x) : (setEntries s x).issued = s.issued := rfl
@[simp] theorem setEntries_taken (x) : (setEntries s x).taken = s.taken := rfl
@[simp] theorem setEntries_mgmt (x) : (setEntries s x).mgmt = s.mgmt := rfl
@[simp] theorem setEntries_pending (x) : (setEntries s x).pending = s.pending := rfl

@[simp] theorem setBalances_resetLine (x) : (setBalances s x).resetLine = s.resetLine := rfl
@[simp] theorem setBalances_holdLine (x) : (setBalances s x).holdLine = s.holdLine := rfl
@[simp] theorem setBalances_part (x) : (setBalances s x).part = s.part := rfl
@[simp] theorem setBalances_tagTable (x) : (setBalances s x).tagTable = s.tagTable := rfl
@[simp] theorem setBalances_refusals (x) : (setBalances s x).refusals = s.refusals := rfl
@[simp] theorem setBalances_slots (x) : (setBalances s x).slots = s.slots := rfl
@[simp] theorem setBalances_arrival (x) : (setBalances s x).arrival = s.arrival := rfl
@[simp] theorem setBalances_queues (x) : (setBalances s x).queues = s.queues := rfl
@[simp] theorem setBalances_lines (x) : (setBalances s x).lines = s.lines := rfl
@[simp] theorem setBalances_entries (x) : (setBalances s x).entries = s.entries := rfl
@[simp] theorem setBalances_balances (x) : (setBalances s x).balances = x := rfl
@[simp] theorem setBalances_refillCount (x) : (setBalances s x).refillCount = s.refillCount := rfl
@[simp] theorem setBalances_periodInForce (x) : (setBalances s x).periodInForce = s.periodInForce := rfl
@[simp] theorem setBalances_urgent (x) : (setBalances s x).urgent = s.urgent := rfl
@[simp] theorem setBalances_pointer (x) : (setBalances s x).pointer = s.pointer := rfl
@[simp] theorem setBalances_tags (x) : (setBalances s x).tags = s.tags := rfl
@[simp] theorem setBalances_fences (x) : (setBalances s x).fences = s.fences := rfl
@[simp] theorem setBalances_fenceOrder (x) : (setBalances s x).fenceOrder = s.fenceOrder := rfl
@[simp] theorem setBalances_faults (x) : (setBalances s x).faults = s.faults := rfl
@[simp] theorem setBalances_overflow (x) : (setBalances s x).overflow = s.overflow := rfl
@[simp] theorem setBalances_readout (x) : (setBalances s x).readout = s.readout := rfl
@[simp] theorem setBalances_responses (x) : (setBalances s x).responses = s.responses := rfl
@[simp] theorem setBalances_staged (x) : (setBalances s x).staged = s.staged := rfl
@[simp] theorem setBalances_active (x) : (setBalances s x).active = s.active := rfl
@[simp] theorem setBalances_epoch (x) : (setBalances s x).epoch = s.epoch := rfl
@[simp] theorem setBalances_shortFrame (x) : (setBalances s x).shortFrame = s.shortFrame := rfl
@[simp] theorem setBalances_timeBase (x) : (setBalances s x).timeBase = s.timeBase := rfl
@[simp] theorem setBalances_causes (x) : (setBalances s x).causes = s.causes := rfl
@[simp] theorem setBalances_counters (x) : (setBalances s x).counters = s.counters := rfl
@[simp] theorem setBalances_answer (x) : (setBalances s x).answer = s.answer := rfl
@[simp] theorem setBalances_issued (x) : (setBalances s x).issued = s.issued := rfl
@[simp] theorem setBalances_taken (x) : (setBalances s x).taken = s.taken := rfl
@[simp] theorem setBalances_mgmt (x) : (setBalances s x).mgmt = s.mgmt := rfl
@[simp] theorem setBalances_pending (x) : (setBalances s x).pending = s.pending := rfl

@[simp] theorem setRefillCount_resetLine (x) : (setRefillCount s x).resetLine = s.resetLine := rfl
@[simp] theorem setRefillCount_holdLine (x) : (setRefillCount s x).holdLine = s.holdLine := rfl
@[simp] theorem setRefillCount_part (x) : (setRefillCount s x).part = s.part := rfl
@[simp] theorem setRefillCount_tagTable (x) : (setRefillCount s x).tagTable = s.tagTable := rfl
@[simp] theorem setRefillCount_refusals (x) : (setRefillCount s x).refusals = s.refusals := rfl
@[simp] theorem setRefillCount_slots (x) : (setRefillCount s x).slots = s.slots := rfl
@[simp] theorem setRefillCount_arrival (x) : (setRefillCount s x).arrival = s.arrival := rfl
@[simp] theorem setRefillCount_queues (x) : (setRefillCount s x).queues = s.queues := rfl
@[simp] theorem setRefillCount_lines (x) : (setRefillCount s x).lines = s.lines := rfl
@[simp] theorem setRefillCount_entries (x) : (setRefillCount s x).entries = s.entries := rfl
@[simp] theorem setRefillCount_balances (x) : (setRefillCount s x).balances = s.balances := rfl
@[simp] theorem setRefillCount_refillCount (x) : (setRefillCount s x).refillCount = x := rfl
@[simp] theorem setRefillCount_periodInForce (x) : (setRefillCount s x).periodInForce = s.periodInForce := rfl
@[simp] theorem setRefillCount_urgent (x) : (setRefillCount s x).urgent = s.urgent := rfl
@[simp] theorem setRefillCount_pointer (x) : (setRefillCount s x).pointer = s.pointer := rfl
@[simp] theorem setRefillCount_tags (x) : (setRefillCount s x).tags = s.tags := rfl
@[simp] theorem setRefillCount_fences (x) : (setRefillCount s x).fences = s.fences := rfl
@[simp] theorem setRefillCount_fenceOrder (x) : (setRefillCount s x).fenceOrder = s.fenceOrder := rfl
@[simp] theorem setRefillCount_faults (x) : (setRefillCount s x).faults = s.faults := rfl
@[simp] theorem setRefillCount_overflow (x) : (setRefillCount s x).overflow = s.overflow := rfl
@[simp] theorem setRefillCount_readout (x) : (setRefillCount s x).readout = s.readout := rfl
@[simp] theorem setRefillCount_responses (x) : (setRefillCount s x).responses = s.responses := rfl
@[simp] theorem setRefillCount_staged (x) : (setRefillCount s x).staged = s.staged := rfl
@[simp] theorem setRefillCount_active (x) : (setRefillCount s x).active = s.active := rfl
@[simp] theorem setRefillCount_epoch (x) : (setRefillCount s x).epoch = s.epoch := rfl
@[simp] theorem setRefillCount_shortFrame (x) : (setRefillCount s x).shortFrame = s.shortFrame := rfl
@[simp] theorem setRefillCount_timeBase (x) : (setRefillCount s x).timeBase = s.timeBase := rfl
@[simp] theorem setRefillCount_causes (x) : (setRefillCount s x).causes = s.causes := rfl
@[simp] theorem setRefillCount_counters (x) : (setRefillCount s x).counters = s.counters := rfl
@[simp] theorem setRefillCount_answer (x) : (setRefillCount s x).answer = s.answer := rfl
@[simp] theorem setRefillCount_issued (x) : (setRefillCount s x).issued = s.issued := rfl
@[simp] theorem setRefillCount_taken (x) : (setRefillCount s x).taken = s.taken := rfl
@[simp] theorem setRefillCount_mgmt (x) : (setRefillCount s x).mgmt = s.mgmt := rfl
@[simp] theorem setRefillCount_pending (x) : (setRefillCount s x).pending = s.pending := rfl

@[simp] theorem setPeriodInForce_resetLine (x) : (setPeriodInForce s x).resetLine = s.resetLine := rfl
@[simp] theorem setPeriodInForce_holdLine (x) : (setPeriodInForce s x).holdLine = s.holdLine := rfl
@[simp] theorem setPeriodInForce_part (x) : (setPeriodInForce s x).part = s.part := rfl
@[simp] theorem setPeriodInForce_tagTable (x) : (setPeriodInForce s x).tagTable = s.tagTable := rfl
@[simp] theorem setPeriodInForce_refusals (x) : (setPeriodInForce s x).refusals = s.refusals := rfl
@[simp] theorem setPeriodInForce_slots (x) : (setPeriodInForce s x).slots = s.slots := rfl
@[simp] theorem setPeriodInForce_arrival (x) : (setPeriodInForce s x).arrival = s.arrival := rfl
@[simp] theorem setPeriodInForce_queues (x) : (setPeriodInForce s x).queues = s.queues := rfl
@[simp] theorem setPeriodInForce_lines (x) : (setPeriodInForce s x).lines = s.lines := rfl
@[simp] theorem setPeriodInForce_entries (x) : (setPeriodInForce s x).entries = s.entries := rfl
@[simp] theorem setPeriodInForce_balances (x) : (setPeriodInForce s x).balances = s.balances := rfl
@[simp] theorem setPeriodInForce_refillCount (x) : (setPeriodInForce s x).refillCount = s.refillCount := rfl
@[simp] theorem setPeriodInForce_periodInForce (x) : (setPeriodInForce s x).periodInForce = x := rfl
@[simp] theorem setPeriodInForce_urgent (x) : (setPeriodInForce s x).urgent = s.urgent := rfl
@[simp] theorem setPeriodInForce_pointer (x) : (setPeriodInForce s x).pointer = s.pointer := rfl
@[simp] theorem setPeriodInForce_tags (x) : (setPeriodInForce s x).tags = s.tags := rfl
@[simp] theorem setPeriodInForce_fences (x) : (setPeriodInForce s x).fences = s.fences := rfl
@[simp] theorem setPeriodInForce_fenceOrder (x) : (setPeriodInForce s x).fenceOrder = s.fenceOrder := rfl
@[simp] theorem setPeriodInForce_faults (x) : (setPeriodInForce s x).faults = s.faults := rfl
@[simp] theorem setPeriodInForce_overflow (x) : (setPeriodInForce s x).overflow = s.overflow := rfl
@[simp] theorem setPeriodInForce_readout (x) : (setPeriodInForce s x).readout = s.readout := rfl
@[simp] theorem setPeriodInForce_responses (x) : (setPeriodInForce s x).responses = s.responses := rfl
@[simp] theorem setPeriodInForce_staged (x) : (setPeriodInForce s x).staged = s.staged := rfl
@[simp] theorem setPeriodInForce_active (x) : (setPeriodInForce s x).active = s.active := rfl
@[simp] theorem setPeriodInForce_epoch (x) : (setPeriodInForce s x).epoch = s.epoch := rfl
@[simp] theorem setPeriodInForce_shortFrame (x) : (setPeriodInForce s x).shortFrame = s.shortFrame := rfl
@[simp] theorem setPeriodInForce_timeBase (x) : (setPeriodInForce s x).timeBase = s.timeBase := rfl
@[simp] theorem setPeriodInForce_causes (x) : (setPeriodInForce s x).causes = s.causes := rfl
@[simp] theorem setPeriodInForce_counters (x) : (setPeriodInForce s x).counters = s.counters := rfl
@[simp] theorem setPeriodInForce_answer (x) : (setPeriodInForce s x).answer = s.answer := rfl
@[simp] theorem setPeriodInForce_issued (x) : (setPeriodInForce s x).issued = s.issued := rfl
@[simp] theorem setPeriodInForce_taken (x) : (setPeriodInForce s x).taken = s.taken := rfl
@[simp] theorem setPeriodInForce_mgmt (x) : (setPeriodInForce s x).mgmt = s.mgmt := rfl
@[simp] theorem setPeriodInForce_pending (x) : (setPeriodInForce s x).pending = s.pending := rfl

@[simp] theorem setUrgent_resetLine (x) : (setUrgent s x).resetLine = s.resetLine := rfl
@[simp] theorem setUrgent_holdLine (x) : (setUrgent s x).holdLine = s.holdLine := rfl
@[simp] theorem setUrgent_part (x) : (setUrgent s x).part = s.part := rfl
@[simp] theorem setUrgent_tagTable (x) : (setUrgent s x).tagTable = s.tagTable := rfl
@[simp] theorem setUrgent_refusals (x) : (setUrgent s x).refusals = s.refusals := rfl
@[simp] theorem setUrgent_slots (x) : (setUrgent s x).slots = s.slots := rfl
@[simp] theorem setUrgent_arrival (x) : (setUrgent s x).arrival = s.arrival := rfl
@[simp] theorem setUrgent_queues (x) : (setUrgent s x).queues = s.queues := rfl
@[simp] theorem setUrgent_lines (x) : (setUrgent s x).lines = s.lines := rfl
@[simp] theorem setUrgent_entries (x) : (setUrgent s x).entries = s.entries := rfl
@[simp] theorem setUrgent_balances (x) : (setUrgent s x).balances = s.balances := rfl
@[simp] theorem setUrgent_refillCount (x) : (setUrgent s x).refillCount = s.refillCount := rfl
@[simp] theorem setUrgent_periodInForce (x) : (setUrgent s x).periodInForce = s.periodInForce := rfl
@[simp] theorem setUrgent_urgent (x) : (setUrgent s x).urgent = x := rfl
@[simp] theorem setUrgent_pointer (x) : (setUrgent s x).pointer = s.pointer := rfl
@[simp] theorem setUrgent_tags (x) : (setUrgent s x).tags = s.tags := rfl
@[simp] theorem setUrgent_fences (x) : (setUrgent s x).fences = s.fences := rfl
@[simp] theorem setUrgent_fenceOrder (x) : (setUrgent s x).fenceOrder = s.fenceOrder := rfl
@[simp] theorem setUrgent_faults (x) : (setUrgent s x).faults = s.faults := rfl
@[simp] theorem setUrgent_overflow (x) : (setUrgent s x).overflow = s.overflow := rfl
@[simp] theorem setUrgent_readout (x) : (setUrgent s x).readout = s.readout := rfl
@[simp] theorem setUrgent_responses (x) : (setUrgent s x).responses = s.responses := rfl
@[simp] theorem setUrgent_staged (x) : (setUrgent s x).staged = s.staged := rfl
@[simp] theorem setUrgent_active (x) : (setUrgent s x).active = s.active := rfl
@[simp] theorem setUrgent_epoch (x) : (setUrgent s x).epoch = s.epoch := rfl
@[simp] theorem setUrgent_shortFrame (x) : (setUrgent s x).shortFrame = s.shortFrame := rfl
@[simp] theorem setUrgent_timeBase (x) : (setUrgent s x).timeBase = s.timeBase := rfl
@[simp] theorem setUrgent_causes (x) : (setUrgent s x).causes = s.causes := rfl
@[simp] theorem setUrgent_counters (x) : (setUrgent s x).counters = s.counters := rfl
@[simp] theorem setUrgent_answer (x) : (setUrgent s x).answer = s.answer := rfl
@[simp] theorem setUrgent_issued (x) : (setUrgent s x).issued = s.issued := rfl
@[simp] theorem setUrgent_taken (x) : (setUrgent s x).taken = s.taken := rfl
@[simp] theorem setUrgent_mgmt (x) : (setUrgent s x).mgmt = s.mgmt := rfl
@[simp] theorem setUrgent_pending (x) : (setUrgent s x).pending = s.pending := rfl

@[simp] theorem setPointer_resetLine (x) : (setPointer s x).resetLine = s.resetLine := rfl
@[simp] theorem setPointer_holdLine (x) : (setPointer s x).holdLine = s.holdLine := rfl
@[simp] theorem setPointer_part (x) : (setPointer s x).part = s.part := rfl
@[simp] theorem setPointer_tagTable (x) : (setPointer s x).tagTable = s.tagTable := rfl
@[simp] theorem setPointer_refusals (x) : (setPointer s x).refusals = s.refusals := rfl
@[simp] theorem setPointer_slots (x) : (setPointer s x).slots = s.slots := rfl
@[simp] theorem setPointer_arrival (x) : (setPointer s x).arrival = s.arrival := rfl
@[simp] theorem setPointer_queues (x) : (setPointer s x).queues = s.queues := rfl
@[simp] theorem setPointer_lines (x) : (setPointer s x).lines = s.lines := rfl
@[simp] theorem setPointer_entries (x) : (setPointer s x).entries = s.entries := rfl
@[simp] theorem setPointer_balances (x) : (setPointer s x).balances = s.balances := rfl
@[simp] theorem setPointer_refillCount (x) : (setPointer s x).refillCount = s.refillCount := rfl
@[simp] theorem setPointer_periodInForce (x) : (setPointer s x).periodInForce = s.periodInForce := rfl
@[simp] theorem setPointer_urgent (x) : (setPointer s x).urgent = s.urgent := rfl
@[simp] theorem setPointer_pointer (x) : (setPointer s x).pointer = x := rfl
@[simp] theorem setPointer_tags (x) : (setPointer s x).tags = s.tags := rfl
@[simp] theorem setPointer_fences (x) : (setPointer s x).fences = s.fences := rfl
@[simp] theorem setPointer_fenceOrder (x) : (setPointer s x).fenceOrder = s.fenceOrder := rfl
@[simp] theorem setPointer_faults (x) : (setPointer s x).faults = s.faults := rfl
@[simp] theorem setPointer_overflow (x) : (setPointer s x).overflow = s.overflow := rfl
@[simp] theorem setPointer_readout (x) : (setPointer s x).readout = s.readout := rfl
@[simp] theorem setPointer_responses (x) : (setPointer s x).responses = s.responses := rfl
@[simp] theorem setPointer_staged (x) : (setPointer s x).staged = s.staged := rfl
@[simp] theorem setPointer_active (x) : (setPointer s x).active = s.active := rfl
@[simp] theorem setPointer_epoch (x) : (setPointer s x).epoch = s.epoch := rfl
@[simp] theorem setPointer_shortFrame (x) : (setPointer s x).shortFrame = s.shortFrame := rfl
@[simp] theorem setPointer_timeBase (x) : (setPointer s x).timeBase = s.timeBase := rfl
@[simp] theorem setPointer_causes (x) : (setPointer s x).causes = s.causes := rfl
@[simp] theorem setPointer_counters (x) : (setPointer s x).counters = s.counters := rfl
@[simp] theorem setPointer_answer (x) : (setPointer s x).answer = s.answer := rfl
@[simp] theorem setPointer_issued (x) : (setPointer s x).issued = s.issued := rfl
@[simp] theorem setPointer_taken (x) : (setPointer s x).taken = s.taken := rfl
@[simp] theorem setPointer_mgmt (x) : (setPointer s x).mgmt = s.mgmt := rfl
@[simp] theorem setPointer_pending (x) : (setPointer s x).pending = s.pending := rfl

@[simp] theorem setTags_resetLine (x) : (setTags s x).resetLine = s.resetLine := rfl
@[simp] theorem setTags_holdLine (x) : (setTags s x).holdLine = s.holdLine := rfl
@[simp] theorem setTags_part (x) : (setTags s x).part = s.part := rfl
@[simp] theorem setTags_tagTable (x) : (setTags s x).tagTable = s.tagTable := rfl
@[simp] theorem setTags_refusals (x) : (setTags s x).refusals = s.refusals := rfl
@[simp] theorem setTags_slots (x) : (setTags s x).slots = s.slots := rfl
@[simp] theorem setTags_arrival (x) : (setTags s x).arrival = s.arrival := rfl
@[simp] theorem setTags_queues (x) : (setTags s x).queues = s.queues := rfl
@[simp] theorem setTags_lines (x) : (setTags s x).lines = s.lines := rfl
@[simp] theorem setTags_entries (x) : (setTags s x).entries = s.entries := rfl
@[simp] theorem setTags_balances (x) : (setTags s x).balances = s.balances := rfl
@[simp] theorem setTags_refillCount (x) : (setTags s x).refillCount = s.refillCount := rfl
@[simp] theorem setTags_periodInForce (x) : (setTags s x).periodInForce = s.periodInForce := rfl
@[simp] theorem setTags_urgent (x) : (setTags s x).urgent = s.urgent := rfl
@[simp] theorem setTags_pointer (x) : (setTags s x).pointer = s.pointer := rfl
@[simp] theorem setTags_tags (x) : (setTags s x).tags = x := rfl
@[simp] theorem setTags_fences (x) : (setTags s x).fences = s.fences := rfl
@[simp] theorem setTags_fenceOrder (x) : (setTags s x).fenceOrder = s.fenceOrder := rfl
@[simp] theorem setTags_faults (x) : (setTags s x).faults = s.faults := rfl
@[simp] theorem setTags_overflow (x) : (setTags s x).overflow = s.overflow := rfl
@[simp] theorem setTags_readout (x) : (setTags s x).readout = s.readout := rfl
@[simp] theorem setTags_responses (x) : (setTags s x).responses = s.responses := rfl
@[simp] theorem setTags_staged (x) : (setTags s x).staged = s.staged := rfl
@[simp] theorem setTags_active (x) : (setTags s x).active = s.active := rfl
@[simp] theorem setTags_epoch (x) : (setTags s x).epoch = s.epoch := rfl
@[simp] theorem setTags_shortFrame (x) : (setTags s x).shortFrame = s.shortFrame := rfl
@[simp] theorem setTags_timeBase (x) : (setTags s x).timeBase = s.timeBase := rfl
@[simp] theorem setTags_causes (x) : (setTags s x).causes = s.causes := rfl
@[simp] theorem setTags_counters (x) : (setTags s x).counters = s.counters := rfl
@[simp] theorem setTags_answer (x) : (setTags s x).answer = s.answer := rfl
@[simp] theorem setTags_issued (x) : (setTags s x).issued = s.issued := rfl
@[simp] theorem setTags_taken (x) : (setTags s x).taken = s.taken := rfl
@[simp] theorem setTags_mgmt (x) : (setTags s x).mgmt = s.mgmt := rfl
@[simp] theorem setTags_pending (x) : (setTags s x).pending = s.pending := rfl

@[simp] theorem setFences_resetLine (x) : (setFences s x).resetLine = s.resetLine := rfl
@[simp] theorem setFences_holdLine (x) : (setFences s x).holdLine = s.holdLine := rfl
@[simp] theorem setFences_part (x) : (setFences s x).part = s.part := rfl
@[simp] theorem setFences_tagTable (x) : (setFences s x).tagTable = s.tagTable := rfl
@[simp] theorem setFences_refusals (x) : (setFences s x).refusals = s.refusals := rfl
@[simp] theorem setFences_slots (x) : (setFences s x).slots = s.slots := rfl
@[simp] theorem setFences_arrival (x) : (setFences s x).arrival = s.arrival := rfl
@[simp] theorem setFences_queues (x) : (setFences s x).queues = s.queues := rfl
@[simp] theorem setFences_lines (x) : (setFences s x).lines = s.lines := rfl
@[simp] theorem setFences_entries (x) : (setFences s x).entries = s.entries := rfl
@[simp] theorem setFences_balances (x) : (setFences s x).balances = s.balances := rfl
@[simp] theorem setFences_refillCount (x) : (setFences s x).refillCount = s.refillCount := rfl
@[simp] theorem setFences_periodInForce (x) : (setFences s x).periodInForce = s.periodInForce := rfl
@[simp] theorem setFences_urgent (x) : (setFences s x).urgent = s.urgent := rfl
@[simp] theorem setFences_pointer (x) : (setFences s x).pointer = s.pointer := rfl
@[simp] theorem setFences_tags (x) : (setFences s x).tags = s.tags := rfl
@[simp] theorem setFences_fences (x) : (setFences s x).fences = x := rfl
@[simp] theorem setFences_fenceOrder (x) : (setFences s x).fenceOrder = s.fenceOrder := rfl
@[simp] theorem setFences_faults (x) : (setFences s x).faults = s.faults := rfl
@[simp] theorem setFences_overflow (x) : (setFences s x).overflow = s.overflow := rfl
@[simp] theorem setFences_readout (x) : (setFences s x).readout = s.readout := rfl
@[simp] theorem setFences_responses (x) : (setFences s x).responses = s.responses := rfl
@[simp] theorem setFences_staged (x) : (setFences s x).staged = s.staged := rfl
@[simp] theorem setFences_active (x) : (setFences s x).active = s.active := rfl
@[simp] theorem setFences_epoch (x) : (setFences s x).epoch = s.epoch := rfl
@[simp] theorem setFences_shortFrame (x) : (setFences s x).shortFrame = s.shortFrame := rfl
@[simp] theorem setFences_timeBase (x) : (setFences s x).timeBase = s.timeBase := rfl
@[simp] theorem setFences_causes (x) : (setFences s x).causes = s.causes := rfl
@[simp] theorem setFences_counters (x) : (setFences s x).counters = s.counters := rfl
@[simp] theorem setFences_answer (x) : (setFences s x).answer = s.answer := rfl
@[simp] theorem setFences_issued (x) : (setFences s x).issued = s.issued := rfl
@[simp] theorem setFences_taken (x) : (setFences s x).taken = s.taken := rfl
@[simp] theorem setFences_mgmt (x) : (setFences s x).mgmt = s.mgmt := rfl
@[simp] theorem setFences_pending (x) : (setFences s x).pending = s.pending := rfl

@[simp] theorem setFenceOrder_resetLine (x) : (setFenceOrder s x).resetLine = s.resetLine := rfl
@[simp] theorem setFenceOrder_holdLine (x) : (setFenceOrder s x).holdLine = s.holdLine := rfl
@[simp] theorem setFenceOrder_part (x) : (setFenceOrder s x).part = s.part := rfl
@[simp] theorem setFenceOrder_tagTable (x) : (setFenceOrder s x).tagTable = s.tagTable := rfl
@[simp] theorem setFenceOrder_refusals (x) : (setFenceOrder s x).refusals = s.refusals := rfl
@[simp] theorem setFenceOrder_slots (x) : (setFenceOrder s x).slots = s.slots := rfl
@[simp] theorem setFenceOrder_arrival (x) : (setFenceOrder s x).arrival = s.arrival := rfl
@[simp] theorem setFenceOrder_queues (x) : (setFenceOrder s x).queues = s.queues := rfl
@[simp] theorem setFenceOrder_lines (x) : (setFenceOrder s x).lines = s.lines := rfl
@[simp] theorem setFenceOrder_entries (x) : (setFenceOrder s x).entries = s.entries := rfl
@[simp] theorem setFenceOrder_balances (x) : (setFenceOrder s x).balances = s.balances := rfl
@[simp] theorem setFenceOrder_refillCount (x) : (setFenceOrder s x).refillCount = s.refillCount := rfl
@[simp] theorem setFenceOrder_periodInForce (x) : (setFenceOrder s x).periodInForce = s.periodInForce := rfl
@[simp] theorem setFenceOrder_urgent (x) : (setFenceOrder s x).urgent = s.urgent := rfl
@[simp] theorem setFenceOrder_pointer (x) : (setFenceOrder s x).pointer = s.pointer := rfl
@[simp] theorem setFenceOrder_tags (x) : (setFenceOrder s x).tags = s.tags := rfl
@[simp] theorem setFenceOrder_fences (x) : (setFenceOrder s x).fences = s.fences := rfl
@[simp] theorem setFenceOrder_fenceOrder (x) : (setFenceOrder s x).fenceOrder = x := rfl
@[simp] theorem setFenceOrder_faults (x) : (setFenceOrder s x).faults = s.faults := rfl
@[simp] theorem setFenceOrder_overflow (x) : (setFenceOrder s x).overflow = s.overflow := rfl
@[simp] theorem setFenceOrder_readout (x) : (setFenceOrder s x).readout = s.readout := rfl
@[simp] theorem setFenceOrder_responses (x) : (setFenceOrder s x).responses = s.responses := rfl
@[simp] theorem setFenceOrder_staged (x) : (setFenceOrder s x).staged = s.staged := rfl
@[simp] theorem setFenceOrder_active (x) : (setFenceOrder s x).active = s.active := rfl
@[simp] theorem setFenceOrder_epoch (x) : (setFenceOrder s x).epoch = s.epoch := rfl
@[simp] theorem setFenceOrder_shortFrame (x) : (setFenceOrder s x).shortFrame = s.shortFrame := rfl
@[simp] theorem setFenceOrder_timeBase (x) : (setFenceOrder s x).timeBase = s.timeBase := rfl
@[simp] theorem setFenceOrder_causes (x) : (setFenceOrder s x).causes = s.causes := rfl
@[simp] theorem setFenceOrder_counters (x) : (setFenceOrder s x).counters = s.counters := rfl
@[simp] theorem setFenceOrder_answer (x) : (setFenceOrder s x).answer = s.answer := rfl
@[simp] theorem setFenceOrder_issued (x) : (setFenceOrder s x).issued = s.issued := rfl
@[simp] theorem setFenceOrder_taken (x) : (setFenceOrder s x).taken = s.taken := rfl
@[simp] theorem setFenceOrder_mgmt (x) : (setFenceOrder s x).mgmt = s.mgmt := rfl
@[simp] theorem setFenceOrder_pending (x) : (setFenceOrder s x).pending = s.pending := rfl

@[simp] theorem setFaults_resetLine (x) : (setFaults s x).resetLine = s.resetLine := rfl
@[simp] theorem setFaults_holdLine (x) : (setFaults s x).holdLine = s.holdLine := rfl
@[simp] theorem setFaults_part (x) : (setFaults s x).part = s.part := rfl
@[simp] theorem setFaults_tagTable (x) : (setFaults s x).tagTable = s.tagTable := rfl
@[simp] theorem setFaults_refusals (x) : (setFaults s x).refusals = s.refusals := rfl
@[simp] theorem setFaults_slots (x) : (setFaults s x).slots = s.slots := rfl
@[simp] theorem setFaults_arrival (x) : (setFaults s x).arrival = s.arrival := rfl
@[simp] theorem setFaults_queues (x) : (setFaults s x).queues = s.queues := rfl
@[simp] theorem setFaults_lines (x) : (setFaults s x).lines = s.lines := rfl
@[simp] theorem setFaults_entries (x) : (setFaults s x).entries = s.entries := rfl
@[simp] theorem setFaults_balances (x) : (setFaults s x).balances = s.balances := rfl
@[simp] theorem setFaults_refillCount (x) : (setFaults s x).refillCount = s.refillCount := rfl
@[simp] theorem setFaults_periodInForce (x) : (setFaults s x).periodInForce = s.periodInForce := rfl
@[simp] theorem setFaults_urgent (x) : (setFaults s x).urgent = s.urgent := rfl
@[simp] theorem setFaults_pointer (x) : (setFaults s x).pointer = s.pointer := rfl
@[simp] theorem setFaults_tags (x) : (setFaults s x).tags = s.tags := rfl
@[simp] theorem setFaults_fences (x) : (setFaults s x).fences = s.fences := rfl
@[simp] theorem setFaults_fenceOrder (x) : (setFaults s x).fenceOrder = s.fenceOrder := rfl
@[simp] theorem setFaults_faults (x) : (setFaults s x).faults = x := rfl
@[simp] theorem setFaults_overflow (x) : (setFaults s x).overflow = s.overflow := rfl
@[simp] theorem setFaults_readout (x) : (setFaults s x).readout = s.readout := rfl
@[simp] theorem setFaults_responses (x) : (setFaults s x).responses = s.responses := rfl
@[simp] theorem setFaults_staged (x) : (setFaults s x).staged = s.staged := rfl
@[simp] theorem setFaults_active (x) : (setFaults s x).active = s.active := rfl
@[simp] theorem setFaults_epoch (x) : (setFaults s x).epoch = s.epoch := rfl
@[simp] theorem setFaults_shortFrame (x) : (setFaults s x).shortFrame = s.shortFrame := rfl
@[simp] theorem setFaults_timeBase (x) : (setFaults s x).timeBase = s.timeBase := rfl
@[simp] theorem setFaults_causes (x) : (setFaults s x).causes = s.causes := rfl
@[simp] theorem setFaults_counters (x) : (setFaults s x).counters = s.counters := rfl
@[simp] theorem setFaults_answer (x) : (setFaults s x).answer = s.answer := rfl
@[simp] theorem setFaults_issued (x) : (setFaults s x).issued = s.issued := rfl
@[simp] theorem setFaults_taken (x) : (setFaults s x).taken = s.taken := rfl
@[simp] theorem setFaults_mgmt (x) : (setFaults s x).mgmt = s.mgmt := rfl
@[simp] theorem setFaults_pending (x) : (setFaults s x).pending = s.pending := rfl

@[simp] theorem setOverflow_resetLine (x) : (setOverflow s x).resetLine = s.resetLine := rfl
@[simp] theorem setOverflow_holdLine (x) : (setOverflow s x).holdLine = s.holdLine := rfl
@[simp] theorem setOverflow_part (x) : (setOverflow s x).part = s.part := rfl
@[simp] theorem setOverflow_tagTable (x) : (setOverflow s x).tagTable = s.tagTable := rfl
@[simp] theorem setOverflow_refusals (x) : (setOverflow s x).refusals = s.refusals := rfl
@[simp] theorem setOverflow_slots (x) : (setOverflow s x).slots = s.slots := rfl
@[simp] theorem setOverflow_arrival (x) : (setOverflow s x).arrival = s.arrival := rfl
@[simp] theorem setOverflow_queues (x) : (setOverflow s x).queues = s.queues := rfl
@[simp] theorem setOverflow_lines (x) : (setOverflow s x).lines = s.lines := rfl
@[simp] theorem setOverflow_entries (x) : (setOverflow s x).entries = s.entries := rfl
@[simp] theorem setOverflow_balances (x) : (setOverflow s x).balances = s.balances := rfl
@[simp] theorem setOverflow_refillCount (x) : (setOverflow s x).refillCount = s.refillCount := rfl
@[simp] theorem setOverflow_periodInForce (x) : (setOverflow s x).periodInForce = s.periodInForce := rfl
@[simp] theorem setOverflow_urgent (x) : (setOverflow s x).urgent = s.urgent := rfl
@[simp] theorem setOverflow_pointer (x) : (setOverflow s x).pointer = s.pointer := rfl
@[simp] theorem setOverflow_tags (x) : (setOverflow s x).tags = s.tags := rfl
@[simp] theorem setOverflow_fences (x) : (setOverflow s x).fences = s.fences := rfl
@[simp] theorem setOverflow_fenceOrder (x) : (setOverflow s x).fenceOrder = s.fenceOrder := rfl
@[simp] theorem setOverflow_faults (x) : (setOverflow s x).faults = s.faults := rfl
@[simp] theorem setOverflow_overflow (x) : (setOverflow s x).overflow = x := rfl
@[simp] theorem setOverflow_readout (x) : (setOverflow s x).readout = s.readout := rfl
@[simp] theorem setOverflow_responses (x) : (setOverflow s x).responses = s.responses := rfl
@[simp] theorem setOverflow_staged (x) : (setOverflow s x).staged = s.staged := rfl
@[simp] theorem setOverflow_active (x) : (setOverflow s x).active = s.active := rfl
@[simp] theorem setOverflow_epoch (x) : (setOverflow s x).epoch = s.epoch := rfl
@[simp] theorem setOverflow_shortFrame (x) : (setOverflow s x).shortFrame = s.shortFrame := rfl
@[simp] theorem setOverflow_timeBase (x) : (setOverflow s x).timeBase = s.timeBase := rfl
@[simp] theorem setOverflow_causes (x) : (setOverflow s x).causes = s.causes := rfl
@[simp] theorem setOverflow_counters (x) : (setOverflow s x).counters = s.counters := rfl
@[simp] theorem setOverflow_answer (x) : (setOverflow s x).answer = s.answer := rfl
@[simp] theorem setOverflow_issued (x) : (setOverflow s x).issued = s.issued := rfl
@[simp] theorem setOverflow_taken (x) : (setOverflow s x).taken = s.taken := rfl
@[simp] theorem setOverflow_mgmt (x) : (setOverflow s x).mgmt = s.mgmt := rfl
@[simp] theorem setOverflow_pending (x) : (setOverflow s x).pending = s.pending := rfl

@[simp] theorem setReadout_resetLine (x) : (setReadout s x).resetLine = s.resetLine := rfl
@[simp] theorem setReadout_holdLine (x) : (setReadout s x).holdLine = s.holdLine := rfl
@[simp] theorem setReadout_part (x) : (setReadout s x).part = s.part := rfl
@[simp] theorem setReadout_tagTable (x) : (setReadout s x).tagTable = s.tagTable := rfl
@[simp] theorem setReadout_refusals (x) : (setReadout s x).refusals = s.refusals := rfl
@[simp] theorem setReadout_slots (x) : (setReadout s x).slots = s.slots := rfl
@[simp] theorem setReadout_arrival (x) : (setReadout s x).arrival = s.arrival := rfl
@[simp] theorem setReadout_queues (x) : (setReadout s x).queues = s.queues := rfl
@[simp] theorem setReadout_lines (x) : (setReadout s x).lines = s.lines := rfl
@[simp] theorem setReadout_entries (x) : (setReadout s x).entries = s.entries := rfl
@[simp] theorem setReadout_balances (x) : (setReadout s x).balances = s.balances := rfl
@[simp] theorem setReadout_refillCount (x) : (setReadout s x).refillCount = s.refillCount := rfl
@[simp] theorem setReadout_periodInForce (x) : (setReadout s x).periodInForce = s.periodInForce := rfl
@[simp] theorem setReadout_urgent (x) : (setReadout s x).urgent = s.urgent := rfl
@[simp] theorem setReadout_pointer (x) : (setReadout s x).pointer = s.pointer := rfl
@[simp] theorem setReadout_tags (x) : (setReadout s x).tags = s.tags := rfl
@[simp] theorem setReadout_fences (x) : (setReadout s x).fences = s.fences := rfl
@[simp] theorem setReadout_fenceOrder (x) : (setReadout s x).fenceOrder = s.fenceOrder := rfl
@[simp] theorem setReadout_faults (x) : (setReadout s x).faults = s.faults := rfl
@[simp] theorem setReadout_overflow (x) : (setReadout s x).overflow = s.overflow := rfl
@[simp] theorem setReadout_readout (x) : (setReadout s x).readout = x := rfl
@[simp] theorem setReadout_responses (x) : (setReadout s x).responses = s.responses := rfl
@[simp] theorem setReadout_staged (x) : (setReadout s x).staged = s.staged := rfl
@[simp] theorem setReadout_active (x) : (setReadout s x).active = s.active := rfl
@[simp] theorem setReadout_epoch (x) : (setReadout s x).epoch = s.epoch := rfl
@[simp] theorem setReadout_shortFrame (x) : (setReadout s x).shortFrame = s.shortFrame := rfl
@[simp] theorem setReadout_timeBase (x) : (setReadout s x).timeBase = s.timeBase := rfl
@[simp] theorem setReadout_causes (x) : (setReadout s x).causes = s.causes := rfl
@[simp] theorem setReadout_counters (x) : (setReadout s x).counters = s.counters := rfl
@[simp] theorem setReadout_answer (x) : (setReadout s x).answer = s.answer := rfl
@[simp] theorem setReadout_issued (x) : (setReadout s x).issued = s.issued := rfl
@[simp] theorem setReadout_taken (x) : (setReadout s x).taken = s.taken := rfl
@[simp] theorem setReadout_mgmt (x) : (setReadout s x).mgmt = s.mgmt := rfl
@[simp] theorem setReadout_pending (x) : (setReadout s x).pending = s.pending := rfl

@[simp] theorem setResponses_resetLine (x) : (setResponses s x).resetLine = s.resetLine := rfl
@[simp] theorem setResponses_holdLine (x) : (setResponses s x).holdLine = s.holdLine := rfl
@[simp] theorem setResponses_part (x) : (setResponses s x).part = s.part := rfl
@[simp] theorem setResponses_tagTable (x) : (setResponses s x).tagTable = s.tagTable := rfl
@[simp] theorem setResponses_refusals (x) : (setResponses s x).refusals = s.refusals := rfl
@[simp] theorem setResponses_slots (x) : (setResponses s x).slots = s.slots := rfl
@[simp] theorem setResponses_arrival (x) : (setResponses s x).arrival = s.arrival := rfl
@[simp] theorem setResponses_queues (x) : (setResponses s x).queues = s.queues := rfl
@[simp] theorem setResponses_lines (x) : (setResponses s x).lines = s.lines := rfl
@[simp] theorem setResponses_entries (x) : (setResponses s x).entries = s.entries := rfl
@[simp] theorem setResponses_balances (x) : (setResponses s x).balances = s.balances := rfl
@[simp] theorem setResponses_refillCount (x) : (setResponses s x).refillCount = s.refillCount := rfl
@[simp] theorem setResponses_periodInForce (x) : (setResponses s x).periodInForce = s.periodInForce := rfl
@[simp] theorem setResponses_urgent (x) : (setResponses s x).urgent = s.urgent := rfl
@[simp] theorem setResponses_pointer (x) : (setResponses s x).pointer = s.pointer := rfl
@[simp] theorem setResponses_tags (x) : (setResponses s x).tags = s.tags := rfl
@[simp] theorem setResponses_fences (x) : (setResponses s x).fences = s.fences := rfl
@[simp] theorem setResponses_fenceOrder (x) : (setResponses s x).fenceOrder = s.fenceOrder := rfl
@[simp] theorem setResponses_faults (x) : (setResponses s x).faults = s.faults := rfl
@[simp] theorem setResponses_overflow (x) : (setResponses s x).overflow = s.overflow := rfl
@[simp] theorem setResponses_readout (x) : (setResponses s x).readout = s.readout := rfl
@[simp] theorem setResponses_responses (x) : (setResponses s x).responses = x := rfl
@[simp] theorem setResponses_staged (x) : (setResponses s x).staged = s.staged := rfl
@[simp] theorem setResponses_active (x) : (setResponses s x).active = s.active := rfl
@[simp] theorem setResponses_epoch (x) : (setResponses s x).epoch = s.epoch := rfl
@[simp] theorem setResponses_shortFrame (x) : (setResponses s x).shortFrame = s.shortFrame := rfl
@[simp] theorem setResponses_timeBase (x) : (setResponses s x).timeBase = s.timeBase := rfl
@[simp] theorem setResponses_causes (x) : (setResponses s x).causes = s.causes := rfl
@[simp] theorem setResponses_counters (x) : (setResponses s x).counters = s.counters := rfl
@[simp] theorem setResponses_answer (x) : (setResponses s x).answer = s.answer := rfl
@[simp] theorem setResponses_issued (x) : (setResponses s x).issued = s.issued := rfl
@[simp] theorem setResponses_taken (x) : (setResponses s x).taken = s.taken := rfl
@[simp] theorem setResponses_mgmt (x) : (setResponses s x).mgmt = s.mgmt := rfl
@[simp] theorem setResponses_pending (x) : (setResponses s x).pending = s.pending := rfl

@[simp] theorem setStaged_resetLine (x) : (setStaged s x).resetLine = s.resetLine := rfl
@[simp] theorem setStaged_holdLine (x) : (setStaged s x).holdLine = s.holdLine := rfl
@[simp] theorem setStaged_part (x) : (setStaged s x).part = s.part := rfl
@[simp] theorem setStaged_tagTable (x) : (setStaged s x).tagTable = s.tagTable := rfl
@[simp] theorem setStaged_refusals (x) : (setStaged s x).refusals = s.refusals := rfl
@[simp] theorem setStaged_slots (x) : (setStaged s x).slots = s.slots := rfl
@[simp] theorem setStaged_arrival (x) : (setStaged s x).arrival = s.arrival := rfl
@[simp] theorem setStaged_queues (x) : (setStaged s x).queues = s.queues := rfl
@[simp] theorem setStaged_lines (x) : (setStaged s x).lines = s.lines := rfl
@[simp] theorem setStaged_entries (x) : (setStaged s x).entries = s.entries := rfl
@[simp] theorem setStaged_balances (x) : (setStaged s x).balances = s.balances := rfl
@[simp] theorem setStaged_refillCount (x) : (setStaged s x).refillCount = s.refillCount := rfl
@[simp] theorem setStaged_periodInForce (x) : (setStaged s x).periodInForce = s.periodInForce := rfl
@[simp] theorem setStaged_urgent (x) : (setStaged s x).urgent = s.urgent := rfl
@[simp] theorem setStaged_pointer (x) : (setStaged s x).pointer = s.pointer := rfl
@[simp] theorem setStaged_tags (x) : (setStaged s x).tags = s.tags := rfl
@[simp] theorem setStaged_fences (x) : (setStaged s x).fences = s.fences := rfl
@[simp] theorem setStaged_fenceOrder (x) : (setStaged s x).fenceOrder = s.fenceOrder := rfl
@[simp] theorem setStaged_faults (x) : (setStaged s x).faults = s.faults := rfl
@[simp] theorem setStaged_overflow (x) : (setStaged s x).overflow = s.overflow := rfl
@[simp] theorem setStaged_readout (x) : (setStaged s x).readout = s.readout := rfl
@[simp] theorem setStaged_responses (x) : (setStaged s x).responses = s.responses := rfl
@[simp] theorem setStaged_staged (x) : (setStaged s x).staged = x := rfl
@[simp] theorem setStaged_active (x) : (setStaged s x).active = s.active := rfl
@[simp] theorem setStaged_epoch (x) : (setStaged s x).epoch = s.epoch := rfl
@[simp] theorem setStaged_shortFrame (x) : (setStaged s x).shortFrame = s.shortFrame := rfl
@[simp] theorem setStaged_timeBase (x) : (setStaged s x).timeBase = s.timeBase := rfl
@[simp] theorem setStaged_causes (x) : (setStaged s x).causes = s.causes := rfl
@[simp] theorem setStaged_counters (x) : (setStaged s x).counters = s.counters := rfl
@[simp] theorem setStaged_answer (x) : (setStaged s x).answer = s.answer := rfl
@[simp] theorem setStaged_issued (x) : (setStaged s x).issued = s.issued := rfl
@[simp] theorem setStaged_taken (x) : (setStaged s x).taken = s.taken := rfl
@[simp] theorem setStaged_mgmt (x) : (setStaged s x).mgmt = s.mgmt := rfl
@[simp] theorem setStaged_pending (x) : (setStaged s x).pending = s.pending := rfl

@[simp] theorem setActive_resetLine (x) : (setActive s x).resetLine = s.resetLine := rfl
@[simp] theorem setActive_holdLine (x) : (setActive s x).holdLine = s.holdLine := rfl
@[simp] theorem setActive_part (x) : (setActive s x).part = s.part := rfl
@[simp] theorem setActive_tagTable (x) : (setActive s x).tagTable = s.tagTable := rfl
@[simp] theorem setActive_refusals (x) : (setActive s x).refusals = s.refusals := rfl
@[simp] theorem setActive_slots (x) : (setActive s x).slots = s.slots := rfl
@[simp] theorem setActive_arrival (x) : (setActive s x).arrival = s.arrival := rfl
@[simp] theorem setActive_queues (x) : (setActive s x).queues = s.queues := rfl
@[simp] theorem setActive_lines (x) : (setActive s x).lines = s.lines := rfl
@[simp] theorem setActive_entries (x) : (setActive s x).entries = s.entries := rfl
@[simp] theorem setActive_balances (x) : (setActive s x).balances = s.balances := rfl
@[simp] theorem setActive_refillCount (x) : (setActive s x).refillCount = s.refillCount := rfl
@[simp] theorem setActive_periodInForce (x) : (setActive s x).periodInForce = s.periodInForce := rfl
@[simp] theorem setActive_urgent (x) : (setActive s x).urgent = s.urgent := rfl
@[simp] theorem setActive_pointer (x) : (setActive s x).pointer = s.pointer := rfl
@[simp] theorem setActive_tags (x) : (setActive s x).tags = s.tags := rfl
@[simp] theorem setActive_fences (x) : (setActive s x).fences = s.fences := rfl
@[simp] theorem setActive_fenceOrder (x) : (setActive s x).fenceOrder = s.fenceOrder := rfl
@[simp] theorem setActive_faults (x) : (setActive s x).faults = s.faults := rfl
@[simp] theorem setActive_overflow (x) : (setActive s x).overflow = s.overflow := rfl
@[simp] theorem setActive_readout (x) : (setActive s x).readout = s.readout := rfl
@[simp] theorem setActive_responses (x) : (setActive s x).responses = s.responses := rfl
@[simp] theorem setActive_staged (x) : (setActive s x).staged = s.staged := rfl
@[simp] theorem setActive_active (x) : (setActive s x).active = x := rfl
@[simp] theorem setActive_epoch (x) : (setActive s x).epoch = s.epoch := rfl
@[simp] theorem setActive_shortFrame (x) : (setActive s x).shortFrame = s.shortFrame := rfl
@[simp] theorem setActive_timeBase (x) : (setActive s x).timeBase = s.timeBase := rfl
@[simp] theorem setActive_causes (x) : (setActive s x).causes = s.causes := rfl
@[simp] theorem setActive_counters (x) : (setActive s x).counters = s.counters := rfl
@[simp] theorem setActive_answer (x) : (setActive s x).answer = s.answer := rfl
@[simp] theorem setActive_issued (x) : (setActive s x).issued = s.issued := rfl
@[simp] theorem setActive_taken (x) : (setActive s x).taken = s.taken := rfl
@[simp] theorem setActive_mgmt (x) : (setActive s x).mgmt = s.mgmt := rfl
@[simp] theorem setActive_pending (x) : (setActive s x).pending = s.pending := rfl

@[simp] theorem setEpoch_resetLine (x) : (setEpoch s x).resetLine = s.resetLine := rfl
@[simp] theorem setEpoch_holdLine (x) : (setEpoch s x).holdLine = s.holdLine := rfl
@[simp] theorem setEpoch_part (x) : (setEpoch s x).part = s.part := rfl
@[simp] theorem setEpoch_tagTable (x) : (setEpoch s x).tagTable = s.tagTable := rfl
@[simp] theorem setEpoch_refusals (x) : (setEpoch s x).refusals = s.refusals := rfl
@[simp] theorem setEpoch_slots (x) : (setEpoch s x).slots = s.slots := rfl
@[simp] theorem setEpoch_arrival (x) : (setEpoch s x).arrival = s.arrival := rfl
@[simp] theorem setEpoch_queues (x) : (setEpoch s x).queues = s.queues := rfl
@[simp] theorem setEpoch_lines (x) : (setEpoch s x).lines = s.lines := rfl
@[simp] theorem setEpoch_entries (x) : (setEpoch s x).entries = s.entries := rfl
@[simp] theorem setEpoch_balances (x) : (setEpoch s x).balances = s.balances := rfl
@[simp] theorem setEpoch_refillCount (x) : (setEpoch s x).refillCount = s.refillCount := rfl
@[simp] theorem setEpoch_periodInForce (x) : (setEpoch s x).periodInForce = s.periodInForce := rfl
@[simp] theorem setEpoch_urgent (x) : (setEpoch s x).urgent = s.urgent := rfl
@[simp] theorem setEpoch_pointer (x) : (setEpoch s x).pointer = s.pointer := rfl
@[simp] theorem setEpoch_tags (x) : (setEpoch s x).tags = s.tags := rfl
@[simp] theorem setEpoch_fences (x) : (setEpoch s x).fences = s.fences := rfl
@[simp] theorem setEpoch_fenceOrder (x) : (setEpoch s x).fenceOrder = s.fenceOrder := rfl
@[simp] theorem setEpoch_faults (x) : (setEpoch s x).faults = s.faults := rfl
@[simp] theorem setEpoch_overflow (x) : (setEpoch s x).overflow = s.overflow := rfl
@[simp] theorem setEpoch_readout (x) : (setEpoch s x).readout = s.readout := rfl
@[simp] theorem setEpoch_responses (x) : (setEpoch s x).responses = s.responses := rfl
@[simp] theorem setEpoch_staged (x) : (setEpoch s x).staged = s.staged := rfl
@[simp] theorem setEpoch_active (x) : (setEpoch s x).active = s.active := rfl
@[simp] theorem setEpoch_epoch (x) : (setEpoch s x).epoch = x := rfl
@[simp] theorem setEpoch_shortFrame (x) : (setEpoch s x).shortFrame = s.shortFrame := rfl
@[simp] theorem setEpoch_timeBase (x) : (setEpoch s x).timeBase = s.timeBase := rfl
@[simp] theorem setEpoch_causes (x) : (setEpoch s x).causes = s.causes := rfl
@[simp] theorem setEpoch_counters (x) : (setEpoch s x).counters = s.counters := rfl
@[simp] theorem setEpoch_answer (x) : (setEpoch s x).answer = s.answer := rfl
@[simp] theorem setEpoch_issued (x) : (setEpoch s x).issued = s.issued := rfl
@[simp] theorem setEpoch_taken (x) : (setEpoch s x).taken = s.taken := rfl
@[simp] theorem setEpoch_mgmt (x) : (setEpoch s x).mgmt = s.mgmt := rfl
@[simp] theorem setEpoch_pending (x) : (setEpoch s x).pending = s.pending := rfl

@[simp] theorem setShortFrame_resetLine (x) : (setShortFrame s x).resetLine = s.resetLine := rfl
@[simp] theorem setShortFrame_holdLine (x) : (setShortFrame s x).holdLine = s.holdLine := rfl
@[simp] theorem setShortFrame_part (x) : (setShortFrame s x).part = s.part := rfl
@[simp] theorem setShortFrame_tagTable (x) : (setShortFrame s x).tagTable = s.tagTable := rfl
@[simp] theorem setShortFrame_refusals (x) : (setShortFrame s x).refusals = s.refusals := rfl
@[simp] theorem setShortFrame_slots (x) : (setShortFrame s x).slots = s.slots := rfl
@[simp] theorem setShortFrame_arrival (x) : (setShortFrame s x).arrival = s.arrival := rfl
@[simp] theorem setShortFrame_queues (x) : (setShortFrame s x).queues = s.queues := rfl
@[simp] theorem setShortFrame_lines (x) : (setShortFrame s x).lines = s.lines := rfl
@[simp] theorem setShortFrame_entries (x) : (setShortFrame s x).entries = s.entries := rfl
@[simp] theorem setShortFrame_balances (x) : (setShortFrame s x).balances = s.balances := rfl
@[simp] theorem setShortFrame_refillCount (x) : (setShortFrame s x).refillCount = s.refillCount := rfl
@[simp] theorem setShortFrame_periodInForce (x) : (setShortFrame s x).periodInForce = s.periodInForce := rfl
@[simp] theorem setShortFrame_urgent (x) : (setShortFrame s x).urgent = s.urgent := rfl
@[simp] theorem setShortFrame_pointer (x) : (setShortFrame s x).pointer = s.pointer := rfl
@[simp] theorem setShortFrame_tags (x) : (setShortFrame s x).tags = s.tags := rfl
@[simp] theorem setShortFrame_fences (x) : (setShortFrame s x).fences = s.fences := rfl
@[simp] theorem setShortFrame_fenceOrder (x) : (setShortFrame s x).fenceOrder = s.fenceOrder := rfl
@[simp] theorem setShortFrame_faults (x) : (setShortFrame s x).faults = s.faults := rfl
@[simp] theorem setShortFrame_overflow (x) : (setShortFrame s x).overflow = s.overflow := rfl
@[simp] theorem setShortFrame_readout (x) : (setShortFrame s x).readout = s.readout := rfl
@[simp] theorem setShortFrame_responses (x) : (setShortFrame s x).responses = s.responses := rfl
@[simp] theorem setShortFrame_staged (x) : (setShortFrame s x).staged = s.staged := rfl
@[simp] theorem setShortFrame_active (x) : (setShortFrame s x).active = s.active := rfl
@[simp] theorem setShortFrame_epoch (x) : (setShortFrame s x).epoch = s.epoch := rfl
@[simp] theorem setShortFrame_shortFrame (x) : (setShortFrame s x).shortFrame = x := rfl
@[simp] theorem setShortFrame_timeBase (x) : (setShortFrame s x).timeBase = s.timeBase := rfl
@[simp] theorem setShortFrame_causes (x) : (setShortFrame s x).causes = s.causes := rfl
@[simp] theorem setShortFrame_counters (x) : (setShortFrame s x).counters = s.counters := rfl
@[simp] theorem setShortFrame_answer (x) : (setShortFrame s x).answer = s.answer := rfl
@[simp] theorem setShortFrame_issued (x) : (setShortFrame s x).issued = s.issued := rfl
@[simp] theorem setShortFrame_taken (x) : (setShortFrame s x).taken = s.taken := rfl
@[simp] theorem setShortFrame_mgmt (x) : (setShortFrame s x).mgmt = s.mgmt := rfl
@[simp] theorem setShortFrame_pending (x) : (setShortFrame s x).pending = s.pending := rfl

@[simp] theorem setTimeBase_resetLine (x) : (setTimeBase s x).resetLine = s.resetLine := rfl
@[simp] theorem setTimeBase_holdLine (x) : (setTimeBase s x).holdLine = s.holdLine := rfl
@[simp] theorem setTimeBase_part (x) : (setTimeBase s x).part = s.part := rfl
@[simp] theorem setTimeBase_tagTable (x) : (setTimeBase s x).tagTable = s.tagTable := rfl
@[simp] theorem setTimeBase_refusals (x) : (setTimeBase s x).refusals = s.refusals := rfl
@[simp] theorem setTimeBase_slots (x) : (setTimeBase s x).slots = s.slots := rfl
@[simp] theorem setTimeBase_arrival (x) : (setTimeBase s x).arrival = s.arrival := rfl
@[simp] theorem setTimeBase_queues (x) : (setTimeBase s x).queues = s.queues := rfl
@[simp] theorem setTimeBase_lines (x) : (setTimeBase s x).lines = s.lines := rfl
@[simp] theorem setTimeBase_entries (x) : (setTimeBase s x).entries = s.entries := rfl
@[simp] theorem setTimeBase_balances (x) : (setTimeBase s x).balances = s.balances := rfl
@[simp] theorem setTimeBase_refillCount (x) : (setTimeBase s x).refillCount = s.refillCount := rfl
@[simp] theorem setTimeBase_periodInForce (x) : (setTimeBase s x).periodInForce = s.periodInForce := rfl
@[simp] theorem setTimeBase_urgent (x) : (setTimeBase s x).urgent = s.urgent := rfl
@[simp] theorem setTimeBase_pointer (x) : (setTimeBase s x).pointer = s.pointer := rfl
@[simp] theorem setTimeBase_tags (x) : (setTimeBase s x).tags = s.tags := rfl
@[simp] theorem setTimeBase_fences (x) : (setTimeBase s x).fences = s.fences := rfl
@[simp] theorem setTimeBase_fenceOrder (x) : (setTimeBase s x).fenceOrder = s.fenceOrder := rfl
@[simp] theorem setTimeBase_faults (x) : (setTimeBase s x).faults = s.faults := rfl
@[simp] theorem setTimeBase_overflow (x) : (setTimeBase s x).overflow = s.overflow := rfl
@[simp] theorem setTimeBase_readout (x) : (setTimeBase s x).readout = s.readout := rfl
@[simp] theorem setTimeBase_responses (x) : (setTimeBase s x).responses = s.responses := rfl
@[simp] theorem setTimeBase_staged (x) : (setTimeBase s x).staged = s.staged := rfl
@[simp] theorem setTimeBase_active (x) : (setTimeBase s x).active = s.active := rfl
@[simp] theorem setTimeBase_epoch (x) : (setTimeBase s x).epoch = s.epoch := rfl
@[simp] theorem setTimeBase_shortFrame (x) : (setTimeBase s x).shortFrame = s.shortFrame := rfl
@[simp] theorem setTimeBase_timeBase (x) : (setTimeBase s x).timeBase = x := rfl
@[simp] theorem setTimeBase_causes (x) : (setTimeBase s x).causes = s.causes := rfl
@[simp] theorem setTimeBase_counters (x) : (setTimeBase s x).counters = s.counters := rfl
@[simp] theorem setTimeBase_answer (x) : (setTimeBase s x).answer = s.answer := rfl
@[simp] theorem setTimeBase_issued (x) : (setTimeBase s x).issued = s.issued := rfl
@[simp] theorem setTimeBase_taken (x) : (setTimeBase s x).taken = s.taken := rfl
@[simp] theorem setTimeBase_mgmt (x) : (setTimeBase s x).mgmt = s.mgmt := rfl
@[simp] theorem setTimeBase_pending (x) : (setTimeBase s x).pending = s.pending := rfl

@[simp] theorem setCauses_resetLine (x) : (setCauses s x).resetLine = s.resetLine := rfl
@[simp] theorem setCauses_holdLine (x) : (setCauses s x).holdLine = s.holdLine := rfl
@[simp] theorem setCauses_part (x) : (setCauses s x).part = s.part := rfl
@[simp] theorem setCauses_tagTable (x) : (setCauses s x).tagTable = s.tagTable := rfl
@[simp] theorem setCauses_refusals (x) : (setCauses s x).refusals = s.refusals := rfl
@[simp] theorem setCauses_slots (x) : (setCauses s x).slots = s.slots := rfl
@[simp] theorem setCauses_arrival (x) : (setCauses s x).arrival = s.arrival := rfl
@[simp] theorem setCauses_queues (x) : (setCauses s x).queues = s.queues := rfl
@[simp] theorem setCauses_lines (x) : (setCauses s x).lines = s.lines := rfl
@[simp] theorem setCauses_entries (x) : (setCauses s x).entries = s.entries := rfl
@[simp] theorem setCauses_balances (x) : (setCauses s x).balances = s.balances := rfl
@[simp] theorem setCauses_refillCount (x) : (setCauses s x).refillCount = s.refillCount := rfl
@[simp] theorem setCauses_periodInForce (x) : (setCauses s x).periodInForce = s.periodInForce := rfl
@[simp] theorem setCauses_urgent (x) : (setCauses s x).urgent = s.urgent := rfl
@[simp] theorem setCauses_pointer (x) : (setCauses s x).pointer = s.pointer := rfl
@[simp] theorem setCauses_tags (x) : (setCauses s x).tags = s.tags := rfl
@[simp] theorem setCauses_fences (x) : (setCauses s x).fences = s.fences := rfl
@[simp] theorem setCauses_fenceOrder (x) : (setCauses s x).fenceOrder = s.fenceOrder := rfl
@[simp] theorem setCauses_faults (x) : (setCauses s x).faults = s.faults := rfl
@[simp] theorem setCauses_overflow (x) : (setCauses s x).overflow = s.overflow := rfl
@[simp] theorem setCauses_readout (x) : (setCauses s x).readout = s.readout := rfl
@[simp] theorem setCauses_responses (x) : (setCauses s x).responses = s.responses := rfl
@[simp] theorem setCauses_staged (x) : (setCauses s x).staged = s.staged := rfl
@[simp] theorem setCauses_active (x) : (setCauses s x).active = s.active := rfl
@[simp] theorem setCauses_epoch (x) : (setCauses s x).epoch = s.epoch := rfl
@[simp] theorem setCauses_shortFrame (x) : (setCauses s x).shortFrame = s.shortFrame := rfl
@[simp] theorem setCauses_timeBase (x) : (setCauses s x).timeBase = s.timeBase := rfl
@[simp] theorem setCauses_causes (x) : (setCauses s x).causes = x := rfl
@[simp] theorem setCauses_counters (x) : (setCauses s x).counters = s.counters := rfl
@[simp] theorem setCauses_answer (x) : (setCauses s x).answer = s.answer := rfl
@[simp] theorem setCauses_issued (x) : (setCauses s x).issued = s.issued := rfl
@[simp] theorem setCauses_taken (x) : (setCauses s x).taken = s.taken := rfl
@[simp] theorem setCauses_mgmt (x) : (setCauses s x).mgmt = s.mgmt := rfl
@[simp] theorem setCauses_pending (x) : (setCauses s x).pending = s.pending := rfl

@[simp] theorem setCounters_resetLine (x) : (setCounters s x).resetLine = s.resetLine := rfl
@[simp] theorem setCounters_holdLine (x) : (setCounters s x).holdLine = s.holdLine := rfl
@[simp] theorem setCounters_part (x) : (setCounters s x).part = s.part := rfl
@[simp] theorem setCounters_tagTable (x) : (setCounters s x).tagTable = s.tagTable := rfl
@[simp] theorem setCounters_refusals (x) : (setCounters s x).refusals = s.refusals := rfl
@[simp] theorem setCounters_slots (x) : (setCounters s x).slots = s.slots := rfl
@[simp] theorem setCounters_arrival (x) : (setCounters s x).arrival = s.arrival := rfl
@[simp] theorem setCounters_queues (x) : (setCounters s x).queues = s.queues := rfl
@[simp] theorem setCounters_lines (x) : (setCounters s x).lines = s.lines := rfl
@[simp] theorem setCounters_entries (x) : (setCounters s x).entries = s.entries := rfl
@[simp] theorem setCounters_balances (x) : (setCounters s x).balances = s.balances := rfl
@[simp] theorem setCounters_refillCount (x) : (setCounters s x).refillCount = s.refillCount := rfl
@[simp] theorem setCounters_periodInForce (x) : (setCounters s x).periodInForce = s.periodInForce := rfl
@[simp] theorem setCounters_urgent (x) : (setCounters s x).urgent = s.urgent := rfl
@[simp] theorem setCounters_pointer (x) : (setCounters s x).pointer = s.pointer := rfl
@[simp] theorem setCounters_tags (x) : (setCounters s x).tags = s.tags := rfl
@[simp] theorem setCounters_fences (x) : (setCounters s x).fences = s.fences := rfl
@[simp] theorem setCounters_fenceOrder (x) : (setCounters s x).fenceOrder = s.fenceOrder := rfl
@[simp] theorem setCounters_faults (x) : (setCounters s x).faults = s.faults := rfl
@[simp] theorem setCounters_overflow (x) : (setCounters s x).overflow = s.overflow := rfl
@[simp] theorem setCounters_readout (x) : (setCounters s x).readout = s.readout := rfl
@[simp] theorem setCounters_responses (x) : (setCounters s x).responses = s.responses := rfl
@[simp] theorem setCounters_staged (x) : (setCounters s x).staged = s.staged := rfl
@[simp] theorem setCounters_active (x) : (setCounters s x).active = s.active := rfl
@[simp] theorem setCounters_epoch (x) : (setCounters s x).epoch = s.epoch := rfl
@[simp] theorem setCounters_shortFrame (x) : (setCounters s x).shortFrame = s.shortFrame := rfl
@[simp] theorem setCounters_timeBase (x) : (setCounters s x).timeBase = s.timeBase := rfl
@[simp] theorem setCounters_causes (x) : (setCounters s x).causes = s.causes := rfl
@[simp] theorem setCounters_counters (x) : (setCounters s x).counters = x := rfl
@[simp] theorem setCounters_answer (x) : (setCounters s x).answer = s.answer := rfl
@[simp] theorem setCounters_issued (x) : (setCounters s x).issued = s.issued := rfl
@[simp] theorem setCounters_taken (x) : (setCounters s x).taken = s.taken := rfl
@[simp] theorem setCounters_mgmt (x) : (setCounters s x).mgmt = s.mgmt := rfl
@[simp] theorem setCounters_pending (x) : (setCounters s x).pending = s.pending := rfl

@[simp] theorem setAnswer_resetLine (x) : (setAnswer s x).resetLine = s.resetLine := rfl
@[simp] theorem setAnswer_holdLine (x) : (setAnswer s x).holdLine = s.holdLine := rfl
@[simp] theorem setAnswer_part (x) : (setAnswer s x).part = s.part := rfl
@[simp] theorem setAnswer_tagTable (x) : (setAnswer s x).tagTable = s.tagTable := rfl
@[simp] theorem setAnswer_refusals (x) : (setAnswer s x).refusals = s.refusals := rfl
@[simp] theorem setAnswer_slots (x) : (setAnswer s x).slots = s.slots := rfl
@[simp] theorem setAnswer_arrival (x) : (setAnswer s x).arrival = s.arrival := rfl
@[simp] theorem setAnswer_queues (x) : (setAnswer s x).queues = s.queues := rfl
@[simp] theorem setAnswer_lines (x) : (setAnswer s x).lines = s.lines := rfl
@[simp] theorem setAnswer_entries (x) : (setAnswer s x).entries = s.entries := rfl
@[simp] theorem setAnswer_balances (x) : (setAnswer s x).balances = s.balances := rfl
@[simp] theorem setAnswer_refillCount (x) : (setAnswer s x).refillCount = s.refillCount := rfl
@[simp] theorem setAnswer_periodInForce (x) : (setAnswer s x).periodInForce = s.periodInForce := rfl
@[simp] theorem setAnswer_urgent (x) : (setAnswer s x).urgent = s.urgent := rfl
@[simp] theorem setAnswer_pointer (x) : (setAnswer s x).pointer = s.pointer := rfl
@[simp] theorem setAnswer_tags (x) : (setAnswer s x).tags = s.tags := rfl
@[simp] theorem setAnswer_fences (x) : (setAnswer s x).fences = s.fences := rfl
@[simp] theorem setAnswer_fenceOrder (x) : (setAnswer s x).fenceOrder = s.fenceOrder := rfl
@[simp] theorem setAnswer_faults (x) : (setAnswer s x).faults = s.faults := rfl
@[simp] theorem setAnswer_overflow (x) : (setAnswer s x).overflow = s.overflow := rfl
@[simp] theorem setAnswer_readout (x) : (setAnswer s x).readout = s.readout := rfl
@[simp] theorem setAnswer_responses (x) : (setAnswer s x).responses = s.responses := rfl
@[simp] theorem setAnswer_staged (x) : (setAnswer s x).staged = s.staged := rfl
@[simp] theorem setAnswer_active (x) : (setAnswer s x).active = s.active := rfl
@[simp] theorem setAnswer_epoch (x) : (setAnswer s x).epoch = s.epoch := rfl
@[simp] theorem setAnswer_shortFrame (x) : (setAnswer s x).shortFrame = s.shortFrame := rfl
@[simp] theorem setAnswer_timeBase (x) : (setAnswer s x).timeBase = s.timeBase := rfl
@[simp] theorem setAnswer_causes (x) : (setAnswer s x).causes = s.causes := rfl
@[simp] theorem setAnswer_counters (x) : (setAnswer s x).counters = s.counters := rfl
@[simp] theorem setAnswer_answer (x) : (setAnswer s x).answer = x := rfl
@[simp] theorem setAnswer_issued (x) : (setAnswer s x).issued = s.issued := rfl
@[simp] theorem setAnswer_taken (x) : (setAnswer s x).taken = s.taken := rfl
@[simp] theorem setAnswer_mgmt (x) : (setAnswer s x).mgmt = s.mgmt := rfl
@[simp] theorem setAnswer_pending (x) : (setAnswer s x).pending = s.pending := rfl

@[simp] theorem setIssued_resetLine (x) : (setIssued s x).resetLine = s.resetLine := rfl
@[simp] theorem setIssued_holdLine (x) : (setIssued s x).holdLine = s.holdLine := rfl
@[simp] theorem setIssued_part (x) : (setIssued s x).part = s.part := rfl
@[simp] theorem setIssued_tagTable (x) : (setIssued s x).tagTable = s.tagTable := rfl
@[simp] theorem setIssued_refusals (x) : (setIssued s x).refusals = s.refusals := rfl
@[simp] theorem setIssued_slots (x) : (setIssued s x).slots = s.slots := rfl
@[simp] theorem setIssued_arrival (x) : (setIssued s x).arrival = s.arrival := rfl
@[simp] theorem setIssued_queues (x) : (setIssued s x).queues = s.queues := rfl
@[simp] theorem setIssued_lines (x) : (setIssued s x).lines = s.lines := rfl
@[simp] theorem setIssued_entries (x) : (setIssued s x).entries = s.entries := rfl
@[simp] theorem setIssued_balances (x) : (setIssued s x).balances = s.balances := rfl
@[simp] theorem setIssued_refillCount (x) : (setIssued s x).refillCount = s.refillCount := rfl
@[simp] theorem setIssued_periodInForce (x) : (setIssued s x).periodInForce = s.periodInForce := rfl
@[simp] theorem setIssued_urgent (x) : (setIssued s x).urgent = s.urgent := rfl
@[simp] theorem setIssued_pointer (x) : (setIssued s x).pointer = s.pointer := rfl
@[simp] theorem setIssued_tags (x) : (setIssued s x).tags = s.tags := rfl
@[simp] theorem setIssued_fences (x) : (setIssued s x).fences = s.fences := rfl
@[simp] theorem setIssued_fenceOrder (x) : (setIssued s x).fenceOrder = s.fenceOrder := rfl
@[simp] theorem setIssued_faults (x) : (setIssued s x).faults = s.faults := rfl
@[simp] theorem setIssued_overflow (x) : (setIssued s x).overflow = s.overflow := rfl
@[simp] theorem setIssued_readout (x) : (setIssued s x).readout = s.readout := rfl
@[simp] theorem setIssued_responses (x) : (setIssued s x).responses = s.responses := rfl
@[simp] theorem setIssued_staged (x) : (setIssued s x).staged = s.staged := rfl
@[simp] theorem setIssued_active (x) : (setIssued s x).active = s.active := rfl
@[simp] theorem setIssued_epoch (x) : (setIssued s x).epoch = s.epoch := rfl
@[simp] theorem setIssued_shortFrame (x) : (setIssued s x).shortFrame = s.shortFrame := rfl
@[simp] theorem setIssued_timeBase (x) : (setIssued s x).timeBase = s.timeBase := rfl
@[simp] theorem setIssued_causes (x) : (setIssued s x).causes = s.causes := rfl
@[simp] theorem setIssued_counters (x) : (setIssued s x).counters = s.counters := rfl
@[simp] theorem setIssued_answer (x) : (setIssued s x).answer = s.answer := rfl
@[simp] theorem setIssued_issued (x) : (setIssued s x).issued = x := rfl
@[simp] theorem setIssued_taken (x) : (setIssued s x).taken = s.taken := rfl
@[simp] theorem setIssued_mgmt (x) : (setIssued s x).mgmt = s.mgmt := rfl
@[simp] theorem setIssued_pending (x) : (setIssued s x).pending = s.pending := rfl

@[simp] theorem setTaken_resetLine (x) : (setTaken s x).resetLine = s.resetLine := rfl
@[simp] theorem setTaken_holdLine (x) : (setTaken s x).holdLine = s.holdLine := rfl
@[simp] theorem setTaken_part (x) : (setTaken s x).part = s.part := rfl
@[simp] theorem setTaken_tagTable (x) : (setTaken s x).tagTable = s.tagTable := rfl
@[simp] theorem setTaken_refusals (x) : (setTaken s x).refusals = s.refusals := rfl
@[simp] theorem setTaken_slots (x) : (setTaken s x).slots = s.slots := rfl
@[simp] theorem setTaken_arrival (x) : (setTaken s x).arrival = s.arrival := rfl
@[simp] theorem setTaken_queues (x) : (setTaken s x).queues = s.queues := rfl
@[simp] theorem setTaken_lines (x) : (setTaken s x).lines = s.lines := rfl
@[simp] theorem setTaken_entries (x) : (setTaken s x).entries = s.entries := rfl
@[simp] theorem setTaken_balances (x) : (setTaken s x).balances = s.balances := rfl
@[simp] theorem setTaken_refillCount (x) : (setTaken s x).refillCount = s.refillCount := rfl
@[simp] theorem setTaken_periodInForce (x) : (setTaken s x).periodInForce = s.periodInForce := rfl
@[simp] theorem setTaken_urgent (x) : (setTaken s x).urgent = s.urgent := rfl
@[simp] theorem setTaken_pointer (x) : (setTaken s x).pointer = s.pointer := rfl
@[simp] theorem setTaken_tags (x) : (setTaken s x).tags = s.tags := rfl
@[simp] theorem setTaken_fences (x) : (setTaken s x).fences = s.fences := rfl
@[simp] theorem setTaken_fenceOrder (x) : (setTaken s x).fenceOrder = s.fenceOrder := rfl
@[simp] theorem setTaken_faults (x) : (setTaken s x).faults = s.faults := rfl
@[simp] theorem setTaken_overflow (x) : (setTaken s x).overflow = s.overflow := rfl
@[simp] theorem setTaken_readout (x) : (setTaken s x).readout = s.readout := rfl
@[simp] theorem setTaken_responses (x) : (setTaken s x).responses = s.responses := rfl
@[simp] theorem setTaken_staged (x) : (setTaken s x).staged = s.staged := rfl
@[simp] theorem setTaken_active (x) : (setTaken s x).active = s.active := rfl
@[simp] theorem setTaken_epoch (x) : (setTaken s x).epoch = s.epoch := rfl
@[simp] theorem setTaken_shortFrame (x) : (setTaken s x).shortFrame = s.shortFrame := rfl
@[simp] theorem setTaken_timeBase (x) : (setTaken s x).timeBase = s.timeBase := rfl
@[simp] theorem setTaken_causes (x) : (setTaken s x).causes = s.causes := rfl
@[simp] theorem setTaken_counters (x) : (setTaken s x).counters = s.counters := rfl
@[simp] theorem setTaken_answer (x) : (setTaken s x).answer = s.answer := rfl
@[simp] theorem setTaken_issued (x) : (setTaken s x).issued = s.issued := rfl
@[simp] theorem setTaken_taken (x) : (setTaken s x).taken = x := rfl
@[simp] theorem setTaken_mgmt (x) : (setTaken s x).mgmt = s.mgmt := rfl
@[simp] theorem setTaken_pending (x) : (setTaken s x).pending = s.pending := rfl

@[simp] theorem setMgmt_resetLine (x) : (setMgmt s x).resetLine = s.resetLine := rfl
@[simp] theorem setMgmt_holdLine (x) : (setMgmt s x).holdLine = s.holdLine := rfl
@[simp] theorem setMgmt_part (x) : (setMgmt s x).part = s.part := rfl
@[simp] theorem setMgmt_tagTable (x) : (setMgmt s x).tagTable = s.tagTable := rfl
@[simp] theorem setMgmt_refusals (x) : (setMgmt s x).refusals = s.refusals := rfl
@[simp] theorem setMgmt_slots (x) : (setMgmt s x).slots = s.slots := rfl
@[simp] theorem setMgmt_arrival (x) : (setMgmt s x).arrival = s.arrival := rfl
@[simp] theorem setMgmt_queues (x) : (setMgmt s x).queues = s.queues := rfl
@[simp] theorem setMgmt_lines (x) : (setMgmt s x).lines = s.lines := rfl
@[simp] theorem setMgmt_entries (x) : (setMgmt s x).entries = s.entries := rfl
@[simp] theorem setMgmt_balances (x) : (setMgmt s x).balances = s.balances := rfl
@[simp] theorem setMgmt_refillCount (x) : (setMgmt s x).refillCount = s.refillCount := rfl
@[simp] theorem setMgmt_periodInForce (x) : (setMgmt s x).periodInForce = s.periodInForce := rfl
@[simp] theorem setMgmt_urgent (x) : (setMgmt s x).urgent = s.urgent := rfl
@[simp] theorem setMgmt_pointer (x) : (setMgmt s x).pointer = s.pointer := rfl
@[simp] theorem setMgmt_tags (x) : (setMgmt s x).tags = s.tags := rfl
@[simp] theorem setMgmt_fences (x) : (setMgmt s x).fences = s.fences := rfl
@[simp] theorem setMgmt_fenceOrder (x) : (setMgmt s x).fenceOrder = s.fenceOrder := rfl
@[simp] theorem setMgmt_faults (x) : (setMgmt s x).faults = s.faults := rfl
@[simp] theorem setMgmt_overflow (x) : (setMgmt s x).overflow = s.overflow := rfl
@[simp] theorem setMgmt_readout (x) : (setMgmt s x).readout = s.readout := rfl
@[simp] theorem setMgmt_responses (x) : (setMgmt s x).responses = s.responses := rfl
@[simp] theorem setMgmt_staged (x) : (setMgmt s x).staged = s.staged := rfl
@[simp] theorem setMgmt_active (x) : (setMgmt s x).active = s.active := rfl
@[simp] theorem setMgmt_epoch (x) : (setMgmt s x).epoch = s.epoch := rfl
@[simp] theorem setMgmt_shortFrame (x) : (setMgmt s x).shortFrame = s.shortFrame := rfl
@[simp] theorem setMgmt_timeBase (x) : (setMgmt s x).timeBase = s.timeBase := rfl
@[simp] theorem setMgmt_causes (x) : (setMgmt s x).causes = s.causes := rfl
@[simp] theorem setMgmt_counters (x) : (setMgmt s x).counters = s.counters := rfl
@[simp] theorem setMgmt_answer (x) : (setMgmt s x).answer = s.answer := rfl
@[simp] theorem setMgmt_issued (x) : (setMgmt s x).issued = s.issued := rfl
@[simp] theorem setMgmt_taken (x) : (setMgmt s x).taken = s.taken := rfl
@[simp] theorem setMgmt_mgmt (x) : (setMgmt s x).mgmt = x := rfl
@[simp] theorem setMgmt_pending (x) : (setMgmt s x).pending = s.pending := rfl

@[simp] theorem setPending_resetLine (x) : (setPending s x).resetLine = s.resetLine := rfl
@[simp] theorem setPending_holdLine (x) : (setPending s x).holdLine = s.holdLine := rfl
@[simp] theorem setPending_part (x) : (setPending s x).part = s.part := rfl
@[simp] theorem setPending_tagTable (x) : (setPending s x).tagTable = s.tagTable := rfl
@[simp] theorem setPending_refusals (x) : (setPending s x).refusals = s.refusals := rfl
@[simp] theorem setPending_slots (x) : (setPending s x).slots = s.slots := rfl
@[simp] theorem setPending_arrival (x) : (setPending s x).arrival = s.arrival := rfl
@[simp] theorem setPending_queues (x) : (setPending s x).queues = s.queues := rfl
@[simp] theorem setPending_lines (x) : (setPending s x).lines = s.lines := rfl
@[simp] theorem setPending_entries (x) : (setPending s x).entries = s.entries := rfl
@[simp] theorem setPending_balances (x) : (setPending s x).balances = s.balances := rfl
@[simp] theorem setPending_refillCount (x) : (setPending s x).refillCount = s.refillCount := rfl
@[simp] theorem setPending_periodInForce (x) : (setPending s x).periodInForce = s.periodInForce := rfl
@[simp] theorem setPending_urgent (x) : (setPending s x).urgent = s.urgent := rfl
@[simp] theorem setPending_pointer (x) : (setPending s x).pointer = s.pointer := rfl
@[simp] theorem setPending_tags (x) : (setPending s x).tags = s.tags := rfl
@[simp] theorem setPending_fences (x) : (setPending s x).fences = s.fences := rfl
@[simp] theorem setPending_fenceOrder (x) : (setPending s x).fenceOrder = s.fenceOrder := rfl
@[simp] theorem setPending_faults (x) : (setPending s x).faults = s.faults := rfl
@[simp] theorem setPending_overflow (x) : (setPending s x).overflow = s.overflow := rfl
@[simp] theorem setPending_readout (x) : (setPending s x).readout = s.readout := rfl
@[simp] theorem setPending_responses (x) : (setPending s x).responses = s.responses := rfl
@[simp] theorem setPending_staged (x) : (setPending s x).staged = s.staged := rfl
@[simp] theorem setPending_active (x) : (setPending s x).active = s.active := rfl
@[simp] theorem setPending_epoch (x) : (setPending s x).epoch = s.epoch := rfl
@[simp] theorem setPending_shortFrame (x) : (setPending s x).shortFrame = s.shortFrame := rfl
@[simp] theorem setPending_timeBase (x) : (setPending s x).timeBase = s.timeBase := rfl
@[simp] theorem setPending_causes (x) : (setPending s x).causes = s.causes := rfl
@[simp] theorem setPending_counters (x) : (setPending s x).counters = s.counters := rfl
@[simp] theorem setPending_answer (x) : (setPending s x).answer = s.answer := rfl
@[simp] theorem setPending_issued (x) : (setPending s x).issued = s.issued := rfl
@[simp] theorem setPending_taken (x) : (setPending s x).taken = s.taken := rfl
@[simp] theorem setPending_mgmt (x) : (setPending s x).mgmt = s.mgmt := rfl
@[simp] theorem setPending_pending (x) : (setPending s x).pending = x := rfl

@[simp] theorem setSlot_resetLine (i x) : (setSlot s i x).resetLine = s.resetLine := rfl
@[simp] theorem setSlot_holdLine (i x) : (setSlot s i x).holdLine = s.holdLine := rfl
@[simp] theorem setSlot_part (i x) : (setSlot s i x).part = s.part := rfl
@[simp] theorem setSlot_tagTable (i x) : (setSlot s i x).tagTable = s.tagTable := rfl
@[simp] theorem setSlot_refusals (i x) : (setSlot s i x).refusals = s.refusals := rfl
@[simp] theorem setSlot_slots (i x) : (setSlot s i x).slots = put s.slots i x := rfl
@[simp] theorem setSlot_arrival (i x) : (setSlot s i x).arrival = s.arrival := rfl
@[simp] theorem setSlot_queues (i x) : (setSlot s i x).queues = s.queues := rfl
@[simp] theorem setSlot_lines (i x) : (setSlot s i x).lines = s.lines := rfl
@[simp] theorem setSlot_entries (i x) : (setSlot s i x).entries = s.entries := rfl
@[simp] theorem setSlot_balances (i x) : (setSlot s i x).balances = s.balances := rfl
@[simp] theorem setSlot_refillCount (i x) : (setSlot s i x).refillCount = s.refillCount := rfl
@[simp] theorem setSlot_periodInForce (i x) : (setSlot s i x).periodInForce = s.periodInForce := rfl
@[simp] theorem setSlot_urgent (i x) : (setSlot s i x).urgent = s.urgent := rfl
@[simp] theorem setSlot_pointer (i x) : (setSlot s i x).pointer = s.pointer := rfl
@[simp] theorem setSlot_tags (i x) : (setSlot s i x).tags = s.tags := rfl
@[simp] theorem setSlot_fences (i x) : (setSlot s i x).fences = s.fences := rfl
@[simp] theorem setSlot_fenceOrder (i x) : (setSlot s i x).fenceOrder = s.fenceOrder := rfl
@[simp] theorem setSlot_faults (i x) : (setSlot s i x).faults = s.faults := rfl
@[simp] theorem setSlot_overflow (i x) : (setSlot s i x).overflow = s.overflow := rfl
@[simp] theorem setSlot_readout (i x) : (setSlot s i x).readout = s.readout := rfl
@[simp] theorem setSlot_responses (i x) : (setSlot s i x).responses = s.responses := rfl
@[simp] theorem setSlot_staged (i x) : (setSlot s i x).staged = s.staged := rfl
@[simp] theorem setSlot_active (i x) : (setSlot s i x).active = s.active := rfl
@[simp] theorem setSlot_epoch (i x) : (setSlot s i x).epoch = s.epoch := rfl
@[simp] theorem setSlot_shortFrame (i x) : (setSlot s i x).shortFrame = s.shortFrame := rfl
@[simp] theorem setSlot_timeBase (i x) : (setSlot s i x).timeBase = s.timeBase := rfl
@[simp] theorem setSlot_causes (i x) : (setSlot s i x).causes = s.causes := rfl
@[simp] theorem setSlot_counters (i x) : (setSlot s i x).counters = s.counters := rfl
@[simp] theorem setSlot_answer (i x) : (setSlot s i x).answer = s.answer := rfl
@[simp] theorem setSlot_issued (i x) : (setSlot s i x).issued = s.issued := rfl
@[simp] theorem setSlot_taken (i x) : (setSlot s i x).taken = s.taken := rfl
@[simp] theorem setSlot_mgmt (i x) : (setSlot s i x).mgmt = s.mgmt := rfl
@[simp] theorem setSlot_pending (i x) : (setSlot s i x).pending = s.pending := rfl

@[simp] theorem setEntry_resetLine (e x) : (setEntry s e x).resetLine = s.resetLine := rfl
@[simp] theorem setEntry_holdLine (e x) : (setEntry s e x).holdLine = s.holdLine := rfl
@[simp] theorem setEntry_part (e x) : (setEntry s e x).part = s.part := rfl
@[simp] theorem setEntry_tagTable (e x) : (setEntry s e x).tagTable = s.tagTable := rfl
@[simp] theorem setEntry_refusals (e x) : (setEntry s e x).refusals = s.refusals := rfl
@[simp] theorem setEntry_slots (e x) : (setEntry s e x).slots = s.slots := rfl
@[simp] theorem setEntry_arrival (e x) : (setEntry s e x).arrival = s.arrival := rfl
@[simp] theorem setEntry_queues (e x) : (setEntry s e x).queues = s.queues := rfl
@[simp] theorem setEntry_lines (e x) : (setEntry s e x).lines = s.lines := rfl
@[simp] theorem setEntry_entries (e x) : (setEntry s e x).entries = put s.entries e x := rfl
@[simp] theorem setEntry_balances (e x) : (setEntry s e x).balances = s.balances := rfl
@[simp] theorem setEntry_refillCount (e x) : (setEntry s e x).refillCount = s.refillCount := rfl
@[simp] theorem setEntry_periodInForce (e x) : (setEntry s e x).periodInForce = s.periodInForce := rfl
@[simp] theorem setEntry_urgent (e x) : (setEntry s e x).urgent = s.urgent := rfl
@[simp] theorem setEntry_pointer (e x) : (setEntry s e x).pointer = s.pointer := rfl
@[simp] theorem setEntry_tags (e x) : (setEntry s e x).tags = s.tags := rfl
@[simp] theorem setEntry_fences (e x) : (setEntry s e x).fences = s.fences := rfl
@[simp] theorem setEntry_fenceOrder (e x) : (setEntry s e x).fenceOrder = s.fenceOrder := rfl
@[simp] theorem setEntry_faults (e x) : (setEntry s e x).faults = s.faults := rfl
@[simp] theorem setEntry_overflow (e x) : (setEntry s e x).overflow = s.overflow := rfl
@[simp] theorem setEntry_readout (e x) : (setEntry s e x).readout = s.readout := rfl
@[simp] theorem setEntry_responses (e x) : (setEntry s e x).responses = s.responses := rfl
@[simp] theorem setEntry_staged (e x) : (setEntry s e x).staged = s.staged := rfl
@[simp] theorem setEntry_active (e x) : (setEntry s e x).active = s.active := rfl
@[simp] theorem setEntry_epoch (e x) : (setEntry s e x).epoch = s.epoch := rfl
@[simp] theorem setEntry_shortFrame (e x) : (setEntry s e x).shortFrame = s.shortFrame := rfl
@[simp] theorem setEntry_timeBase (e x) : (setEntry s e x).timeBase = s.timeBase := rfl
@[simp] theorem setEntry_causes (e x) : (setEntry s e x).causes = s.causes := rfl
@[simp] theorem setEntry_counters (e x) : (setEntry s e x).counters = s.counters := rfl
@[simp] theorem setEntry_answer (e x) : (setEntry s e x).answer = s.answer := rfl
@[simp] theorem setEntry_issued (e x) : (setEntry s e x).issued = s.issued := rfl
@[simp] theorem setEntry_taken (e x) : (setEntry s e x).taken = s.taken := rfl
@[simp] theorem setEntry_mgmt (e x) : (setEntry s e x).mgmt = s.mgmt := rfl
@[simp] theorem setEntry_pending (e x) : (setEntry s e x).pending = s.pending := rfl

@[simp] theorem setTag_resetLine (t x) : (setTag s t x).resetLine = s.resetLine := rfl
@[simp] theorem setTag_holdLine (t x) : (setTag s t x).holdLine = s.holdLine := rfl
@[simp] theorem setTag_part (t x) : (setTag s t x).part = s.part := rfl
@[simp] theorem setTag_tagTable (t x) : (setTag s t x).tagTable = s.tagTable := rfl
@[simp] theorem setTag_refusals (t x) : (setTag s t x).refusals = s.refusals := rfl
@[simp] theorem setTag_slots (t x) : (setTag s t x).slots = s.slots := rfl
@[simp] theorem setTag_arrival (t x) : (setTag s t x).arrival = s.arrival := rfl
@[simp] theorem setTag_queues (t x) : (setTag s t x).queues = s.queues := rfl
@[simp] theorem setTag_lines (t x) : (setTag s t x).lines = s.lines := rfl
@[simp] theorem setTag_entries (t x) : (setTag s t x).entries = s.entries := rfl
@[simp] theorem setTag_balances (t x) : (setTag s t x).balances = s.balances := rfl
@[simp] theorem setTag_refillCount (t x) : (setTag s t x).refillCount = s.refillCount := rfl
@[simp] theorem setTag_periodInForce (t x) : (setTag s t x).periodInForce = s.periodInForce := rfl
@[simp] theorem setTag_urgent (t x) : (setTag s t x).urgent = s.urgent := rfl
@[simp] theorem setTag_pointer (t x) : (setTag s t x).pointer = s.pointer := rfl
@[simp] theorem setTag_tags (t x) : (setTag s t x).tags = put s.tags t x := rfl
@[simp] theorem setTag_fences (t x) : (setTag s t x).fences = s.fences := rfl
@[simp] theorem setTag_fenceOrder (t x) : (setTag s t x).fenceOrder = s.fenceOrder := rfl
@[simp] theorem setTag_faults (t x) : (setTag s t x).faults = s.faults := rfl
@[simp] theorem setTag_overflow (t x) : (setTag s t x).overflow = s.overflow := rfl
@[simp] theorem setTag_readout (t x) : (setTag s t x).readout = s.readout := rfl
@[simp] theorem setTag_responses (t x) : (setTag s t x).responses = s.responses := rfl
@[simp] theorem setTag_staged (t x) : (setTag s t x).staged = s.staged := rfl
@[simp] theorem setTag_active (t x) : (setTag s t x).active = s.active := rfl
@[simp] theorem setTag_epoch (t x) : (setTag s t x).epoch = s.epoch := rfl
@[simp] theorem setTag_shortFrame (t x) : (setTag s t x).shortFrame = s.shortFrame := rfl
@[simp] theorem setTag_timeBase (t x) : (setTag s t x).timeBase = s.timeBase := rfl
@[simp] theorem setTag_causes (t x) : (setTag s t x).causes = s.causes := rfl
@[simp] theorem setTag_counters (t x) : (setTag s t x).counters = s.counters := rfl
@[simp] theorem setTag_answer (t x) : (setTag s t x).answer = s.answer := rfl
@[simp] theorem setTag_issued (t x) : (setTag s t x).issued = s.issued := rfl
@[simp] theorem setTag_taken (t x) : (setTag s t x).taken = s.taken := rfl
@[simp] theorem setTag_mgmt (t x) : (setTag s t x).mgmt = s.mgmt := rfl
@[simp] theorem setTag_pending (t x) : (setTag s t x).pending = s.pending := rfl

@[simp] theorem setFence_resetLine (k x) : (setFence s k x).resetLine = s.resetLine := rfl
@[simp] theorem setFence_holdLine (k x) : (setFence s k x).holdLine = s.holdLine := rfl
@[simp] theorem setFence_part (k x) : (setFence s k x).part = s.part := rfl
@[simp] theorem setFence_tagTable (k x) : (setFence s k x).tagTable = s.tagTable := rfl
@[simp] theorem setFence_refusals (k x) : (setFence s k x).refusals = s.refusals := rfl
@[simp] theorem setFence_slots (k x) : (setFence s k x).slots = s.slots := rfl
@[simp] theorem setFence_arrival (k x) : (setFence s k x).arrival = s.arrival := rfl
@[simp] theorem setFence_queues (k x) : (setFence s k x).queues = s.queues := rfl
@[simp] theorem setFence_lines (k x) : (setFence s k x).lines = s.lines := rfl
@[simp] theorem setFence_entries (k x) : (setFence s k x).entries = s.entries := rfl
@[simp] theorem setFence_balances (k x) : (setFence s k x).balances = s.balances := rfl
@[simp] theorem setFence_refillCount (k x) : (setFence s k x).refillCount = s.refillCount := rfl
@[simp] theorem setFence_periodInForce (k x) : (setFence s k x).periodInForce = s.periodInForce := rfl
@[simp] theorem setFence_urgent (k x) : (setFence s k x).urgent = s.urgent := rfl
@[simp] theorem setFence_pointer (k x) : (setFence s k x).pointer = s.pointer := rfl
@[simp] theorem setFence_tags (k x) : (setFence s k x).tags = s.tags := rfl
@[simp] theorem setFence_fences (k x) : (setFence s k x).fences = put s.fences k x := rfl
@[simp] theorem setFence_fenceOrder (k x) : (setFence s k x).fenceOrder = s.fenceOrder := rfl
@[simp] theorem setFence_faults (k x) : (setFence s k x).faults = s.faults := rfl
@[simp] theorem setFence_overflow (k x) : (setFence s k x).overflow = s.overflow := rfl
@[simp] theorem setFence_readout (k x) : (setFence s k x).readout = s.readout := rfl
@[simp] theorem setFence_responses (k x) : (setFence s k x).responses = s.responses := rfl
@[simp] theorem setFence_staged (k x) : (setFence s k x).staged = s.staged := rfl
@[simp] theorem setFence_active (k x) : (setFence s k x).active = s.active := rfl
@[simp] theorem setFence_epoch (k x) : (setFence s k x).epoch = s.epoch := rfl
@[simp] theorem setFence_shortFrame (k x) : (setFence s k x).shortFrame = s.shortFrame := rfl
@[simp] theorem setFence_timeBase (k x) : (setFence s k x).timeBase = s.timeBase := rfl
@[simp] theorem setFence_causes (k x) : (setFence s k x).causes = s.causes := rfl
@[simp] theorem setFence_counters (k x) : (setFence s k x).counters = s.counters := rfl
@[simp] theorem setFence_answer (k x) : (setFence s k x).answer = s.answer := rfl
@[simp] theorem setFence_issued (k x) : (setFence s k x).issued = s.issued := rfl
@[simp] theorem setFence_taken (k x) : (setFence s k x).taken = s.taken := rfl
@[simp] theorem setFence_mgmt (k x) : (setFence s k x).mgmt = s.mgmt := rfl
@[simp] theorem setFence_pending (k x) : (setFence s k x).pending = s.pending := rfl

end Sys2Proof.Machine
end

