-- ==== Sys2Proof/Laws/Tables.lean ====
section
/-! SUPPORT. What the table helpers do: reading a record after a write of one, the lowest record that satisfies
a test, and the induction that every `forEach` proof uses. -/

namespace Sys2Proof.Machine

variable {n : Nat} {α σ : Type}

/-! The simp forms stand on the number below the bound, which is where simp takes an index to. -/

@[simp] theorem get_put_val (v : Vector α n) (i : Fin n) (x : α) (j : Nat) (h : j < n) :
    (put v i x)[j] = if j = i.val then x else v[j] := by
  simp only [put, Vector.getElem_set, eq_comm]

@[simp] theorem get_tabulate_val (f : Fin n → α) (j : Nat) (h : j < n) : (tabulate f)[j] = f ⟨j, h⟩ := by
  simp [tabulate]

theorem get_put (v : Vector α n) (i j : Fin n) (x : α) : (put v i x)[j] = if j = i then x else v[j] := by
  simp [Fin.ext_iff]

theorem get_put_self (v : Vector α n) (i : Fin n) (x : α) : (put v i x)[i] = x := by simp

theorem get_put_ne (v : Vector α n) {i j : Fin n} (x : α) (h : j ≠ i) : (put v i x)[j] = v[j] := by
  simp [Fin.val_inj, h]

theorem get_tabulate (f : Fin n → α) (i : Fin n) : (tabulate f)[i] = f i := by simp

theorem vector_ext {v w : Vector α n} (h : ∀ i : Fin n, v[i] = w[i]) : v = w :=
  Vector.ext fun i hi => h ⟨i, hi⟩

/-- Two writes of different records commute. -/
theorem put_comm (v : Vector α n) {i j : Fin n} (x y : α) (h : i ≠ j) : put (put v i x) j y = put (put v j y) i x :=
  vector_ext fun k => by simp only [get_put]; split <;> split <;> simp_all

@[simp] theorem put_put (v : Vector α n) (i : Fin n) (x y : α) : put (put v i x) i y = put v i y :=
  vector_ext fun k => by simp only [get_put]; split <;> simp_all

@[simp] theorem put_get (v : Vector α n) (i : Fin n) : put v i v[i] = v :=
  vector_ext fun k => by simp only [get_put]; split <;> simp_all

theorem allOf_iff {p : Fin n → Bool} : allOf p = true ↔ ∀ i, p i = true := by simp [allOf]

theorem anyOf_iff {p : Fin n → Bool} : anyOf p = true ↔ ∃ i, p i = true := by simp [anyOf]

/-- `find?` on a list in rising order finds the least element that satisfies the test. -/
theorem find?_sorted {l : List (Fin n)} (hl : l.Pairwise (· < ·)) {p : Fin n → Bool} {i : Fin n} :
    l.find? p = some i ↔ i ∈ l ∧ p i = true ∧ ∀ j ∈ l, j < i → p j = false := by
  induction l with
  | nil => simp
  | cons a l ih =>
    have ha := (List.pairwise_cons.1 hl).1
    by_cases hp : p a = true
    · rw [List.find?_cons_of_pos hp]
      constructor
      · rintro h
        obtain rfl : a = i := by simpa using h
        refine ⟨by simp, hp, fun j hj hlt => ?_⟩
        rcases List.mem_cons.1 hj with rfl | hj
        · exact absurd hlt (lt_irrefl _)
        · exact absurd (ha j hj) (lt_asymm hlt)
      · rintro ⟨hi, _, hmin⟩
        rcases List.mem_cons.1 hi with rfl | hi
        · rfl
        · have := hmin a (by simp) (ha i hi)
          simp_all
    · rw [List.find?_cons_of_neg hp, ih (List.pairwise_cons.1 hl).2]
      constructor
      · rintro ⟨hi, hpi, hmin⟩
        refine ⟨by simp [hi], hpi, fun j hj hlt => ?_⟩
        rcases List.mem_cons.1 hj with rfl | hj
        · simpa using hp
        · exact hmin j hj hlt
      · rintro ⟨hi, hpi, hmin⟩
        rcases List.mem_cons.1 hi with rfl | hi
        · exact absurd hpi hp
        · exact ⟨hi, hpi, fun j hj => hmin j (by simp [hj])⟩

/-- The lowest-numbered record that satisfies the test: it does, and no lower one does. -/
theorem firstWhere_eq_some {p : Fin n → Bool} {i : Fin n} :
    firstWhere p = some i ↔ p i = true ∧ ∀ j < i, p j = false := by
  rw [firstWhere, find?_sorted (List.pairwise_lt_finRange n)]
  simp

theorem firstWhere_eq_none {p : Fin n → Bool} : firstWhere p = none ↔ ∀ i, p i = false := by
  simp [firstWhere]

/-- What every pass over the records keeps, the whole pass keeps. -/
theorem forEach_keeps {P : σ → Prop} {f : σ → Fin n → σ} (step : ∀ t i, P t → P (f t i)) {s : σ} (h : P s) :
    P (forEach s f) := by
  unfold forEach
  generalize List.finRange n = l
  induction l generalizing s with
  | nil => exact h
  | cons a l ih => exact ih (step s a h)

/-- A projection that no pass changes, the whole `forEach` leaves. -/
theorem forEach_eq {β : Type} (g : σ → β) {f : σ → Fin n → σ} (step : ∀ t i, g (f t i) = g t) (s : σ) :
    g (forEach s f) = g s :=
  forEach_keeps (P := fun t => g t = g s) (fun t i h => (step t i).trans h) rfl

/-- A projection that no pass changes, a fold over a list leaves. -/
theorem foldl_eq {β ι : Type} (g : σ → β) {f : σ → ι → σ} (step : ∀ t i, g (f t i) = g t) (l : List ι) (s : σ) :
    g (l.foldl f s) = g s := by
  induction l generalizing s with
  | nil => rfl
  | cons a l ih => exact (ih (f s a)).trans (step s a)

theorem mem_addTo [BEq α] [LawfulBEq α] {univ xs : List α} {x y : α} (h : y ∈ univ) :
    y ∈ addTo univ x xs ↔ y = x ∨ y ∈ xs := by simp [addTo, h]

@[simp] theorem mem_without [BEq α] [LawfulBEq α] {xs : List α} {x y : α} : y ∈ without x xs ↔ y ∈ xs ∧ y ≠ x := by
  simp [without]

end Sys2Proof.Machine
end

