-- ==== Sys2Proof/Laws/Frames.lean ====
section
/-! SUPPORT. The frame of every operation, one lemma each: the fields of State it leaves as they stand. A field
an operation's lemma does not name is one it may change. -/

namespace Sys2Proof.Machine

/-! ## Counters and causes -/

@[simp] theorem countClass_frame (s : State) (k) (f) :
    (countClass s k f).resetLine = s.resetLine ∧ (countClass s k f).holdLine = s.holdLine ∧
    (countClass s k f).part = s.part ∧ (countClass s k f).tagTable = s.tagTable ∧
    (countClass s k f).refusals = s.refusals ∧ (countClass s k f).slots = s.slots ∧
    (countClass s k f).arrival = s.arrival ∧ (countClass s k f).queues = s.queues ∧
    (countClass s k f).lines = s.lines ∧ (countClass s k f).entries = s.entries ∧
    (countClass s k f).balances = s.balances ∧ (countClass s k f).refillCount = s.refillCount ∧
    (countClass s k f).periodInForce = s.periodInForce ∧ (countClass s k f).urgent = s.urgent ∧
    (countClass s k f).pointer = s.pointer ∧ (countClass s k f).tags = s.tags ∧
    (countClass s k f).fences = s.fences ∧ (countClass s k f).fenceOrder = s.fenceOrder ∧
    (countClass s k f).faults = s.faults ∧ (countClass s k f).overflow = s.overflow ∧
    (countClass s k f).readout = s.readout ∧ (countClass s k f).responses = s.responses ∧
    (countClass s k f).staged = s.staged ∧ (countClass s k f).active = s.active ∧
    (countClass s k f).epoch = s.epoch ∧ (countClass s k f).shortFrame = s.shortFrame ∧
    (countClass s k f).timeBase = s.timeBase ∧ (countClass s k f).causes = s.causes ∧
    (countClass s k f).answer = s.answer ∧ (countClass s k f).issued = s.issued ∧
    (countClass s k f).taken = s.taken ∧ (countClass s k f).mgmt = s.mgmt ∧ (countClass s k f).pending = s.pending := by
  simp [countClass]

@[simp] theorem countAccepted_frame (s : State) (k) :
    (countAccepted s k).resetLine = s.resetLine ∧ (countAccepted s k).holdLine = s.holdLine ∧
    (countAccepted s k).part = s.part ∧ (countAccepted s k).tagTable = s.tagTable ∧
    (countAccepted s k).refusals = s.refusals ∧ (countAccepted s k).slots = s.slots ∧
    (countAccepted s k).arrival = s.arrival ∧ (countAccepted s k).queues = s.queues ∧
    (countAccepted s k).lines = s.lines ∧ (countAccepted s k).entries = s.entries ∧
    (countAccepted s k).balances = s.balances ∧ (countAccepted s k).refillCount = s.refillCount ∧
    (countAccepted s k).periodInForce = s.periodInForce ∧ (countAccepted s k).urgent = s.urgent ∧
    (countAccepted s k).pointer = s.pointer ∧ (countAccepted s k).tags = s.tags ∧
    (countAccepted s k).fences = s.fences ∧ (countAccepted s k).fenceOrder = s.fenceOrder ∧
    (countAccepted s k).faults = s.faults ∧ (countAccepted s k).overflow = s.overflow ∧
    (countAccepted s k).readout = s.readout ∧ (countAccepted s k).responses = s.responses ∧
    (countAccepted s k).staged = s.staged ∧ (countAccepted s k).active = s.active ∧
    (countAccepted s k).epoch = s.epoch ∧ (countAccepted s k).shortFrame = s.shortFrame ∧
    (countAccepted s k).timeBase = s.timeBase ∧ (countAccepted s k).causes = s.causes ∧
    (countAccepted s k).answer = s.answer ∧ (countAccepted s k).issued = s.issued ∧
    (countAccepted s k).taken = s.taken ∧ (countAccepted s k).mgmt = s.mgmt ∧
    (countAccepted s k).pending = s.pending := by
  simp [countAccepted]

@[simp] theorem countBytes_frame (s : State) (k) (n) :
    (countBytes s k n).resetLine = s.resetLine ∧ (countBytes s k n).holdLine = s.holdLine ∧
    (countBytes s k n).part = s.part ∧ (countBytes s k n).tagTable = s.tagTable ∧
    (countBytes s k n).refusals = s.refusals ∧ (countBytes s k n).slots = s.slots ∧
    (countBytes s k n).arrival = s.arrival ∧ (countBytes s k n).queues = s.queues ∧
    (countBytes s k n).lines = s.lines ∧ (countBytes s k n).entries = s.entries ∧
    (countBytes s k n).balances = s.balances ∧ (countBytes s k n).refillCount = s.refillCount ∧
    (countBytes s k n).periodInForce = s.periodInForce ∧ (countBytes s k n).urgent = s.urgent ∧
    (countBytes s k n).pointer = s.pointer ∧ (countBytes s k n).tags = s.tags ∧
    (countBytes s k n).fences = s.fences ∧ (countBytes s k n).fenceOrder = s.fenceOrder ∧
    (countBytes s k n).faults = s.faults ∧ (countBytes s k n).overflow = s.overflow ∧
    (countBytes s k n).readout = s.readout ∧ (countBytes s k n).responses = s.responses ∧
    (countBytes s k n).staged = s.staged ∧ (countBytes s k n).active = s.active ∧
    (countBytes s k n).epoch = s.epoch ∧ (countBytes s k n).shortFrame = s.shortFrame ∧
    (countBytes s k n).timeBase = s.timeBase ∧ (countBytes s k n).causes = s.causes ∧
    (countBytes s k n).answer = s.answer ∧ (countBytes s k n).issued = s.issued ∧
    (countBytes s k n).taken = s.taken ∧ (countBytes s k n).mgmt = s.mgmt ∧ (countBytes s k n).pending = s.pending := by
  simp [countBytes]

@[simp] theorem countEpisode_frame (s : State) (k) :
    (countEpisode s k).resetLine = s.resetLine ∧ (countEpisode s k).holdLine = s.holdLine ∧
    (countEpisode s k).part = s.part ∧ (countEpisode s k).tagTable = s.tagTable ∧
    (countEpisode s k).refusals = s.refusals ∧ (countEpisode s k).slots = s.slots ∧
    (countEpisode s k).arrival = s.arrival ∧ (countEpisode s k).queues = s.queues ∧
    (countEpisode s k).lines = s.lines ∧ (countEpisode s k).entries = s.entries ∧
    (countEpisode s k).balances = s.balances ∧ (countEpisode s k).refillCount = s.refillCount ∧
    (countEpisode s k).periodInForce = s.periodInForce ∧ (countEpisode s k).urgent = s.urgent ∧
    (countEpisode s k).pointer = s.pointer ∧ (countEpisode s k).tags = s.tags ∧
    (countEpisode s k).fences = s.fences ∧ (countEpisode s k).fenceOrder = s.fenceOrder ∧
    (countEpisode s k).faults = s.faults ∧ (countEpisode s k).overflow = s.overflow ∧
    (countEpisode s k).readout = s.readout ∧ (countEpisode s k).responses = s.responses ∧
    (countEpisode s k).staged = s.staged ∧ (countEpisode s k).active = s.active ∧
    (countEpisode s k).epoch = s.epoch ∧ (countEpisode s k).shortFrame = s.shortFrame ∧
    (countEpisode s k).timeBase = s.timeBase ∧ (countEpisode s k).causes = s.causes ∧
    (countEpisode s k).answer = s.answer ∧ (countEpisode s k).issued = s.issued ∧
    (countEpisode s k).taken = s.taken ∧ (countEpisode s k).mgmt = s.mgmt ∧ (countEpisode s k).pending = s.pending := by
  simp [countEpisode]

@[simp] theorem countPromotion_frame (s : State) (k) :
    (countPromotion s k).resetLine = s.resetLine ∧ (countPromotion s k).holdLine = s.holdLine ∧
    (countPromotion s k).part = s.part ∧ (countPromotion s k).tagTable = s.tagTable ∧
    (countPromotion s k).refusals = s.refusals ∧ (countPromotion s k).slots = s.slots ∧
    (countPromotion s k).arrival = s.arrival ∧ (countPromotion s k).queues = s.queues ∧
    (countPromotion s k).lines = s.lines ∧ (countPromotion s k).entries = s.entries ∧
    (countPromotion s k).balances = s.balances ∧ (countPromotion s k).refillCount = s.refillCount ∧
    (countPromotion s k).periodInForce = s.periodInForce ∧ (countPromotion s k).urgent = s.urgent ∧
    (countPromotion s k).pointer = s.pointer ∧ (countPromotion s k).tags = s.tags ∧
    (countPromotion s k).fences = s.fences ∧ (countPromotion s k).fenceOrder = s.fenceOrder ∧
    (countPromotion s k).faults = s.faults ∧ (countPromotion s k).overflow = s.overflow ∧
    (countPromotion s k).readout = s.readout ∧ (countPromotion s k).responses = s.responses ∧
    (countPromotion s k).staged = s.staged ∧ (countPromotion s k).active = s.active ∧
    (countPromotion s k).epoch = s.epoch ∧ (countPromotion s k).shortFrame = s.shortFrame ∧
    (countPromotion s k).timeBase = s.timeBase ∧ (countPromotion s k).causes = s.causes ∧
    (countPromotion s k).answer = s.answer ∧ (countPromotion s k).issued = s.issued ∧
    (countPromotion s k).taken = s.taken ∧ (countPromotion s k).mgmt = s.mgmt ∧
    (countPromotion s k).pending = s.pending := by
  simp [countPromotion]

@[simp] theorem countDeferral_frame (s : State) (k) :
    (countDeferral s k).resetLine = s.resetLine ∧ (countDeferral s k).holdLine = s.holdLine ∧
    (countDeferral s k).part = s.part ∧ (countDeferral s k).tagTable = s.tagTable ∧
    (countDeferral s k).refusals = s.refusals ∧ (countDeferral s k).slots = s.slots ∧
    (countDeferral s k).arrival = s.arrival ∧ (countDeferral s k).queues = s.queues ∧
    (countDeferral s k).lines = s.lines ∧ (countDeferral s k).entries = s.entries ∧
    (countDeferral s k).balances = s.balances ∧ (countDeferral s k).refillCount = s.refillCount ∧
    (countDeferral s k).periodInForce = s.periodInForce ∧ (countDeferral s k).urgent = s.urgent ∧
    (countDeferral s k).pointer = s.pointer ∧ (countDeferral s k).tags = s.tags ∧
    (countDeferral s k).fences = s.fences ∧ (countDeferral s k).fenceOrder = s.fenceOrder ∧
    (countDeferral s k).faults = s.faults ∧ (countDeferral s k).overflow = s.overflow ∧
    (countDeferral s k).readout = s.readout ∧ (countDeferral s k).responses = s.responses ∧
    (countDeferral s k).staged = s.staged ∧ (countDeferral s k).active = s.active ∧
    (countDeferral s k).epoch = s.epoch ∧ (countDeferral s k).shortFrame = s.shortFrame ∧
    (countDeferral s k).timeBase = s.timeBase ∧ (countDeferral s k).causes = s.causes ∧
    (countDeferral s k).answer = s.answer ∧ (countDeferral s k).issued = s.issued ∧
    (countDeferral s k).taken = s.taken ∧ (countDeferral s k).mgmt = s.mgmt ∧
    (countDeferral s k).pending = s.pending := by
  simp [countDeferral]

@[simp] theorem countUnclassed_frame (s : State) :
    (countUnclassed s).resetLine = s.resetLine ∧ (countUnclassed s).holdLine = s.holdLine ∧
    (countUnclassed s).part = s.part ∧ (countUnclassed s).tagTable = s.tagTable ∧
    (countUnclassed s).refusals = s.refusals ∧ (countUnclassed s).slots = s.slots ∧
    (countUnclassed s).arrival = s.arrival ∧ (countUnclassed s).queues = s.queues ∧
    (countUnclassed s).lines = s.lines ∧ (countUnclassed s).entries = s.entries ∧
    (countUnclassed s).balances = s.balances ∧ (countUnclassed s).refillCount = s.refillCount ∧
    (countUnclassed s).periodInForce = s.periodInForce ∧ (countUnclassed s).urgent = s.urgent ∧
    (countUnclassed s).pointer = s.pointer ∧ (countUnclassed s).tags = s.tags ∧
    (countUnclassed s).fences = s.fences ∧ (countUnclassed s).fenceOrder = s.fenceOrder ∧
    (countUnclassed s).faults = s.faults ∧ (countUnclassed s).overflow = s.overflow ∧
    (countUnclassed s).readout = s.readout ∧ (countUnclassed s).responses = s.responses ∧
    (countUnclassed s).staged = s.staged ∧ (countUnclassed s).active = s.active ∧
    (countUnclassed s).epoch = s.epoch ∧ (countUnclassed s).shortFrame = s.shortFrame ∧
    (countUnclassed s).timeBase = s.timeBase ∧ (countUnclassed s).causes = s.causes ∧
    (countUnclassed s).answer = s.answer ∧ (countUnclassed s).issued = s.issued ∧
    (countUnclassed s).taken = s.taken ∧ (countUnclassed s).mgmt = s.mgmt ∧ (countUnclassed s).pending = s.pending := by
  simp [countUnclassed]

@[simp] theorem countRefusal_frame (s : State) (st) :
    (countRefusal s st).resetLine = s.resetLine ∧ (countRefusal s st).holdLine = s.holdLine ∧
    (countRefusal s st).part = s.part ∧ (countRefusal s st).tagTable = s.tagTable ∧
    (countRefusal s st).refusals = s.refusals ∧ (countRefusal s st).slots = s.slots ∧
    (countRefusal s st).arrival = s.arrival ∧ (countRefusal s st).queues = s.queues ∧
    (countRefusal s st).lines = s.lines ∧ (countRefusal s st).entries = s.entries ∧
    (countRefusal s st).balances = s.balances ∧ (countRefusal s st).refillCount = s.refillCount ∧
    (countRefusal s st).periodInForce = s.periodInForce ∧ (countRefusal s st).urgent = s.urgent ∧
    (countRefusal s st).pointer = s.pointer ∧ (countRefusal s st).tags = s.tags ∧
    (countRefusal s st).fences = s.fences ∧ (countRefusal s st).fenceOrder = s.fenceOrder ∧
    (countRefusal s st).faults = s.faults ∧ (countRefusal s st).overflow = s.overflow ∧
    (countRefusal s st).readout = s.readout ∧ (countRefusal s st).responses = s.responses ∧
    (countRefusal s st).staged = s.staged ∧ (countRefusal s st).active = s.active ∧
    (countRefusal s st).epoch = s.epoch ∧ (countRefusal s st).shortFrame = s.shortFrame ∧
    (countRefusal s st).timeBase = s.timeBase ∧ (countRefusal s st).causes = s.causes ∧
    (countRefusal s st).answer = s.answer ∧ (countRefusal s st).issued = s.issued ∧
    (countRefusal s st).taken = s.taken ∧ (countRefusal s st).mgmt = s.mgmt ∧
    (countRefusal s st).pending = s.pending := by
  simp [countRefusal]

@[simp] theorem countForward_frame (s : State) :
    (countForward s).resetLine = s.resetLine ∧ (countForward s).holdLine = s.holdLine ∧
    (countForward s).part = s.part ∧ (countForward s).tagTable = s.tagTable ∧
    (countForward s).refusals = s.refusals ∧ (countForward s).slots = s.slots ∧
    (countForward s).arrival = s.arrival ∧ (countForward s).queues = s.queues ∧ (countForward s).lines = s.lines ∧
    (countForward s).entries = s.entries ∧ (countForward s).balances = s.balances ∧
    (countForward s).refillCount = s.refillCount ∧ (countForward s).periodInForce = s.periodInForce ∧
    (countForward s).urgent = s.urgent ∧ (countForward s).pointer = s.pointer ∧ (countForward s).tags = s.tags ∧
    (countForward s).fences = s.fences ∧ (countForward s).fenceOrder = s.fenceOrder ∧
    (countForward s).faults = s.faults ∧ (countForward s).overflow = s.overflow ∧
    (countForward s).readout = s.readout ∧ (countForward s).responses = s.responses ∧
    (countForward s).staged = s.staged ∧ (countForward s).active = s.active ∧ (countForward s).epoch = s.epoch ∧
    (countForward s).shortFrame = s.shortFrame ∧ (countForward s).timeBase = s.timeBase ∧
    (countForward s).causes = s.causes ∧ (countForward s).answer = s.answer ∧ (countForward s).issued = s.issued ∧
    (countForward s).taken = s.taken ∧ (countForward s).mgmt = s.mgmt ∧ (countForward s).pending = s.pending := by
  simp [countForward]

@[simp] theorem countOverlay_frame (s : State) :
    (countOverlay s).resetLine = s.resetLine ∧ (countOverlay s).holdLine = s.holdLine ∧
    (countOverlay s).part = s.part ∧ (countOverlay s).tagTable = s.tagTable ∧
    (countOverlay s).refusals = s.refusals ∧ (countOverlay s).slots = s.slots ∧
    (countOverlay s).arrival = s.arrival ∧ (countOverlay s).queues = s.queues ∧ (countOverlay s).lines = s.lines ∧
    (countOverlay s).entries = s.entries ∧ (countOverlay s).balances = s.balances ∧
    (countOverlay s).refillCount = s.refillCount ∧ (countOverlay s).periodInForce = s.periodInForce ∧
    (countOverlay s).urgent = s.urgent ∧ (countOverlay s).pointer = s.pointer ∧ (countOverlay s).tags = s.tags ∧
    (countOverlay s).fences = s.fences ∧ (countOverlay s).fenceOrder = s.fenceOrder ∧
    (countOverlay s).faults = s.faults ∧ (countOverlay s).overflow = s.overflow ∧
    (countOverlay s).readout = s.readout ∧ (countOverlay s).responses = s.responses ∧
    (countOverlay s).staged = s.staged ∧ (countOverlay s).active = s.active ∧ (countOverlay s).epoch = s.epoch ∧
    (countOverlay s).shortFrame = s.shortFrame ∧ (countOverlay s).timeBase = s.timeBase ∧
    (countOverlay s).causes = s.causes ∧ (countOverlay s).answer = s.answer ∧ (countOverlay s).issued = s.issued ∧
    (countOverlay s).taken = s.taken ∧ (countOverlay s).mgmt = s.mgmt ∧ (countOverlay s).pending = s.pending := by
  simp [countOverlay]

@[simp] theorem countMerge_frame (s : State) :
    (countMerge s).resetLine = s.resetLine ∧ (countMerge s).holdLine = s.holdLine ∧ (countMerge s).part = s.part ∧
    (countMerge s).tagTable = s.tagTable ∧ (countMerge s).refusals = s.refusals ∧ (countMerge s).slots = s.slots ∧
    (countMerge s).arrival = s.arrival ∧ (countMerge s).queues = s.queues ∧ (countMerge s).lines = s.lines ∧
    (countMerge s).entries = s.entries ∧ (countMerge s).balances = s.balances ∧
    (countMerge s).refillCount = s.refillCount ∧ (countMerge s).periodInForce = s.periodInForce ∧
    (countMerge s).urgent = s.urgent ∧ (countMerge s).pointer = s.pointer ∧ (countMerge s).tags = s.tags ∧
    (countMerge s).fences = s.fences ∧ (countMerge s).fenceOrder = s.fenceOrder ∧
    (countMerge s).faults = s.faults ∧ (countMerge s).overflow = s.overflow ∧ (countMerge s).readout = s.readout ∧
    (countMerge s).responses = s.responses ∧ (countMerge s).staged = s.staged ∧ (countMerge s).active = s.active ∧
    (countMerge s).epoch = s.epoch ∧ (countMerge s).shortFrame = s.shortFrame ∧
    (countMerge s).timeBase = s.timeBase ∧ (countMerge s).causes = s.causes ∧ (countMerge s).answer = s.answer ∧
    (countMerge s).issued = s.issued ∧ (countMerge s).taken = s.taken ∧ (countMerge s).mgmt = s.mgmt ∧
    (countMerge s).pending = s.pending := by
  simp [countMerge]

@[simp] theorem countDrain_frame (s : State) :
    (countDrain s).resetLine = s.resetLine ∧ (countDrain s).holdLine = s.holdLine ∧ (countDrain s).part = s.part ∧
    (countDrain s).tagTable = s.tagTable ∧ (countDrain s).refusals = s.refusals ∧ (countDrain s).slots = s.slots ∧
    (countDrain s).arrival = s.arrival ∧ (countDrain s).queues = s.queues ∧ (countDrain s).lines = s.lines ∧
    (countDrain s).entries = s.entries ∧ (countDrain s).balances = s.balances ∧
    (countDrain s).refillCount = s.refillCount ∧ (countDrain s).periodInForce = s.periodInForce ∧
    (countDrain s).urgent = s.urgent ∧ (countDrain s).pointer = s.pointer ∧ (countDrain s).tags = s.tags ∧
    (countDrain s).fences = s.fences ∧ (countDrain s).fenceOrder = s.fenceOrder ∧
    (countDrain s).faults = s.faults ∧ (countDrain s).overflow = s.overflow ∧ (countDrain s).readout = s.readout ∧
    (countDrain s).responses = s.responses ∧ (countDrain s).staged = s.staged ∧ (countDrain s).active = s.active ∧
    (countDrain s).epoch = s.epoch ∧ (countDrain s).shortFrame = s.shortFrame ∧
    (countDrain s).timeBase = s.timeBase ∧ (countDrain s).causes = s.causes ∧ (countDrain s).answer = s.answer ∧
    (countDrain s).issued = s.issued ∧ (countDrain s).taken = s.taken ∧ (countDrain s).mgmt = s.mgmt ∧
    (countDrain s).pending = s.pending := by
  simp [countDrain]

@[simp] theorem countTimeout_frame (s : State) :
    (countTimeout s).resetLine = s.resetLine ∧ (countTimeout s).holdLine = s.holdLine ∧
    (countTimeout s).part = s.part ∧ (countTimeout s).tagTable = s.tagTable ∧
    (countTimeout s).refusals = s.refusals ∧ (countTimeout s).slots = s.slots ∧
    (countTimeout s).arrival = s.arrival ∧ (countTimeout s).queues = s.queues ∧ (countTimeout s).lines = s.lines ∧
    (countTimeout s).entries = s.entries ∧ (countTimeout s).balances = s.balances ∧
    (countTimeout s).refillCount = s.refillCount ∧ (countTimeout s).periodInForce = s.periodInForce ∧
    (countTimeout s).urgent = s.urgent ∧ (countTimeout s).pointer = s.pointer ∧ (countTimeout s).tags = s.tags ∧
    (countTimeout s).fences = s.fences ∧ (countTimeout s).fenceOrder = s.fenceOrder ∧
    (countTimeout s).faults = s.faults ∧ (countTimeout s).overflow = s.overflow ∧
    (countTimeout s).readout = s.readout ∧ (countTimeout s).responses = s.responses ∧
    (countTimeout s).staged = s.staged ∧ (countTimeout s).active = s.active ∧ (countTimeout s).epoch = s.epoch ∧
    (countTimeout s).shortFrame = s.shortFrame ∧ (countTimeout s).timeBase = s.timeBase ∧
    (countTimeout s).causes = s.causes ∧ (countTimeout s).answer = s.answer ∧ (countTimeout s).issued = s.issued ∧
    (countTimeout s).taken = s.taken ∧ (countTimeout s).mgmt = s.mgmt ∧ (countTimeout s).pending = s.pending := by
  simp [countTimeout]

@[simp] theorem countLate_frame (s : State) :
    (countLate s).resetLine = s.resetLine ∧ (countLate s).holdLine = s.holdLine ∧ (countLate s).part = s.part ∧
    (countLate s).tagTable = s.tagTable ∧ (countLate s).refusals = s.refusals ∧ (countLate s).slots = s.slots ∧
    (countLate s).arrival = s.arrival ∧ (countLate s).queues = s.queues ∧ (countLate s).lines = s.lines ∧
    (countLate s).entries = s.entries ∧ (countLate s).balances = s.balances ∧
    (countLate s).refillCount = s.refillCount ∧ (countLate s).periodInForce = s.periodInForce ∧
    (countLate s).urgent = s.urgent ∧ (countLate s).pointer = s.pointer ∧ (countLate s).tags = s.tags ∧
    (countLate s).fences = s.fences ∧ (countLate s).fenceOrder = s.fenceOrder ∧ (countLate s).faults = s.faults ∧
    (countLate s).overflow = s.overflow ∧ (countLate s).readout = s.readout ∧
    (countLate s).responses = s.responses ∧ (countLate s).staged = s.staged ∧ (countLate s).active = s.active ∧
    (countLate s).epoch = s.epoch ∧ (countLate s).shortFrame = s.shortFrame ∧
    (countLate s).timeBase = s.timeBase ∧ (countLate s).causes = s.causes ∧ (countLate s).answer = s.answer ∧
    (countLate s).issued = s.issued ∧ (countLate s).taken = s.taken ∧ (countLate s).mgmt = s.mgmt ∧
    (countLate s).pending = s.pending := by
  simp [countLate]

@[simp] theorem countStray_frame (s : State) :
    (countStray s).resetLine = s.resetLine ∧ (countStray s).holdLine = s.holdLine ∧ (countStray s).part = s.part ∧
    (countStray s).tagTable = s.tagTable ∧ (countStray s).refusals = s.refusals ∧ (countStray s).slots = s.slots ∧
    (countStray s).arrival = s.arrival ∧ (countStray s).queues = s.queues ∧ (countStray s).lines = s.lines ∧
    (countStray s).entries = s.entries ∧ (countStray s).balances = s.balances ∧
    (countStray s).refillCount = s.refillCount ∧ (countStray s).periodInForce = s.periodInForce ∧
    (countStray s).urgent = s.urgent ∧ (countStray s).pointer = s.pointer ∧ (countStray s).tags = s.tags ∧
    (countStray s).fences = s.fences ∧ (countStray s).fenceOrder = s.fenceOrder ∧
    (countStray s).faults = s.faults ∧ (countStray s).overflow = s.overflow ∧ (countStray s).readout = s.readout ∧
    (countStray s).responses = s.responses ∧ (countStray s).staged = s.staged ∧ (countStray s).active = s.active ∧
    (countStray s).epoch = s.epoch ∧ (countStray s).shortFrame = s.shortFrame ∧
    (countStray s).timeBase = s.timeBase ∧ (countStray s).causes = s.causes ∧ (countStray s).answer = s.answer ∧
    (countStray s).issued = s.issued ∧ (countStray s).taken = s.taken ∧ (countStray s).mgmt = s.mgmt ∧
    (countStray s).pending = s.pending := by
  simp [countStray]

@[simp] theorem raiseFaultRecorded_frame (s : State) :
    (raiseFaultRecorded s).resetLine = s.resetLine ∧ (raiseFaultRecorded s).holdLine = s.holdLine ∧
    (raiseFaultRecorded s).part = s.part ∧ (raiseFaultRecorded s).tagTable = s.tagTable ∧
    (raiseFaultRecorded s).refusals = s.refusals ∧ (raiseFaultRecorded s).slots = s.slots ∧
    (raiseFaultRecorded s).arrival = s.arrival ∧ (raiseFaultRecorded s).queues = s.queues ∧
    (raiseFaultRecorded s).lines = s.lines ∧ (raiseFaultRecorded s).entries = s.entries ∧
    (raiseFaultRecorded s).balances = s.balances ∧ (raiseFaultRecorded s).refillCount = s.refillCount ∧
    (raiseFaultRecorded s).periodInForce = s.periodInForce ∧ (raiseFaultRecorded s).urgent = s.urgent ∧
    (raiseFaultRecorded s).pointer = s.pointer ∧ (raiseFaultRecorded s).tags = s.tags ∧
    (raiseFaultRecorded s).fences = s.fences ∧ (raiseFaultRecorded s).fenceOrder = s.fenceOrder ∧
    (raiseFaultRecorded s).faults = s.faults ∧ (raiseFaultRecorded s).overflow = s.overflow ∧
    (raiseFaultRecorded s).readout = s.readout ∧ (raiseFaultRecorded s).responses = s.responses ∧
    (raiseFaultRecorded s).staged = s.staged ∧ (raiseFaultRecorded s).active = s.active ∧
    (raiseFaultRecorded s).epoch = s.epoch ∧ (raiseFaultRecorded s).shortFrame = s.shortFrame ∧
    (raiseFaultRecorded s).timeBase = s.timeBase ∧ (raiseFaultRecorded s).counters = s.counters ∧
    (raiseFaultRecorded s).answer = s.answer ∧ (raiseFaultRecorded s).issued = s.issued ∧
    (raiseFaultRecorded s).taken = s.taken ∧ (raiseFaultRecorded s).mgmt = s.mgmt ∧
    (raiseFaultRecorded s).pending = s.pending := by
  simp [raiseFaultRecorded]

@[simp] theorem raiseFaultOverflow_frame (s : State) :
    (raiseFaultOverflow s).resetLine = s.resetLine ∧ (raiseFaultOverflow s).holdLine = s.holdLine ∧
    (raiseFaultOverflow s).part = s.part ∧ (raiseFaultOverflow s).tagTable = s.tagTable ∧
    (raiseFaultOverflow s).refusals = s.refusals ∧ (raiseFaultOverflow s).slots = s.slots ∧
    (raiseFaultOverflow s).arrival = s.arrival ∧ (raiseFaultOverflow s).queues = s.queues ∧
    (raiseFaultOverflow s).lines = s.lines ∧ (raiseFaultOverflow s).entries = s.entries ∧
    (raiseFaultOverflow s).balances = s.balances ∧ (raiseFaultOverflow s).refillCount = s.refillCount ∧
    (raiseFaultOverflow s).periodInForce = s.periodInForce ∧ (raiseFaultOverflow s).urgent = s.urgent ∧
    (raiseFaultOverflow s).pointer = s.pointer ∧ (raiseFaultOverflow s).tags = s.tags ∧
    (raiseFaultOverflow s).fences = s.fences ∧ (raiseFaultOverflow s).fenceOrder = s.fenceOrder ∧
    (raiseFaultOverflow s).faults = s.faults ∧ (raiseFaultOverflow s).overflow = s.overflow ∧
    (raiseFaultOverflow s).readout = s.readout ∧ (raiseFaultOverflow s).responses = s.responses ∧
    (raiseFaultOverflow s).staged = s.staged ∧ (raiseFaultOverflow s).active = s.active ∧
    (raiseFaultOverflow s).epoch = s.epoch ∧ (raiseFaultOverflow s).shortFrame = s.shortFrame ∧
    (raiseFaultOverflow s).timeBase = s.timeBase ∧ (raiseFaultOverflow s).counters = s.counters ∧
    (raiseFaultOverflow s).answer = s.answer ∧ (raiseFaultOverflow s).issued = s.issued ∧
    (raiseFaultOverflow s).taken = s.taken ∧ (raiseFaultOverflow s).mgmt = s.mgmt ∧
    (raiseFaultOverflow s).pending = s.pending := by
  simp [raiseFaultOverflow]

@[simp] theorem raiseMemTimeout_frame (s : State) :
    (raiseMemTimeout s).resetLine = s.resetLine ∧ (raiseMemTimeout s).holdLine = s.holdLine ∧
    (raiseMemTimeout s).part = s.part ∧ (raiseMemTimeout s).tagTable = s.tagTable ∧
    (raiseMemTimeout s).refusals = s.refusals ∧ (raiseMemTimeout s).slots = s.slots ∧
    (raiseMemTimeout s).arrival = s.arrival ∧ (raiseMemTimeout s).queues = s.queues ∧
    (raiseMemTimeout s).lines = s.lines ∧ (raiseMemTimeout s).entries = s.entries ∧
    (raiseMemTimeout s).balances = s.balances ∧ (raiseMemTimeout s).refillCount = s.refillCount ∧
    (raiseMemTimeout s).periodInForce = s.periodInForce ∧ (raiseMemTimeout s).urgent = s.urgent ∧
    (raiseMemTimeout s).pointer = s.pointer ∧ (raiseMemTimeout s).tags = s.tags ∧
    (raiseMemTimeout s).fences = s.fences ∧ (raiseMemTimeout s).fenceOrder = s.fenceOrder ∧
    (raiseMemTimeout s).faults = s.faults ∧ (raiseMemTimeout s).overflow = s.overflow ∧
    (raiseMemTimeout s).readout = s.readout ∧ (raiseMemTimeout s).responses = s.responses ∧
    (raiseMemTimeout s).staged = s.staged ∧ (raiseMemTimeout s).active = s.active ∧
    (raiseMemTimeout s).epoch = s.epoch ∧ (raiseMemTimeout s).shortFrame = s.shortFrame ∧
    (raiseMemTimeout s).timeBase = s.timeBase ∧ (raiseMemTimeout s).counters = s.counters ∧
    (raiseMemTimeout s).answer = s.answer ∧ (raiseMemTimeout s).issued = s.issued ∧
    (raiseMemTimeout s).taken = s.taken ∧ (raiseMemTimeout s).mgmt = s.mgmt ∧
    (raiseMemTimeout s).pending = s.pending := by
  simp [raiseMemTimeout]

@[simp] theorem raiseStrayCompletion_frame (s : State) :
    (raiseStrayCompletion s).resetLine = s.resetLine ∧ (raiseStrayCompletion s).holdLine = s.holdLine ∧
    (raiseStrayCompletion s).part = s.part ∧ (raiseStrayCompletion s).tagTable = s.tagTable ∧
    (raiseStrayCompletion s).refusals = s.refusals ∧ (raiseStrayCompletion s).slots = s.slots ∧
    (raiseStrayCompletion s).arrival = s.arrival ∧ (raiseStrayCompletion s).queues = s.queues ∧
    (raiseStrayCompletion s).lines = s.lines ∧ (raiseStrayCompletion s).entries = s.entries ∧
    (raiseStrayCompletion s).balances = s.balances ∧ (raiseStrayCompletion s).refillCount = s.refillCount ∧
    (raiseStrayCompletion s).periodInForce = s.periodInForce ∧ (raiseStrayCompletion s).urgent = s.urgent ∧
    (raiseStrayCompletion s).pointer = s.pointer ∧ (raiseStrayCompletion s).tags = s.tags ∧
    (raiseStrayCompletion s).fences = s.fences ∧ (raiseStrayCompletion s).fenceOrder = s.fenceOrder ∧
    (raiseStrayCompletion s).faults = s.faults ∧ (raiseStrayCompletion s).overflow = s.overflow ∧
    (raiseStrayCompletion s).readout = s.readout ∧ (raiseStrayCompletion s).responses = s.responses ∧
    (raiseStrayCompletion s).staged = s.staged ∧ (raiseStrayCompletion s).active = s.active ∧
    (raiseStrayCompletion s).epoch = s.epoch ∧ (raiseStrayCompletion s).shortFrame = s.shortFrame ∧
    (raiseStrayCompletion s).timeBase = s.timeBase ∧ (raiseStrayCompletion s).counters = s.counters ∧
    (raiseStrayCompletion s).answer = s.answer ∧ (raiseStrayCompletion s).issued = s.issued ∧
    (raiseStrayCompletion s).taken = s.taken ∧ (raiseStrayCompletion s).mgmt = s.mgmt ∧
    (raiseStrayCompletion s).pending = s.pending := by
  simp [raiseStrayCompletion]

@[simp] theorem raiseDrained_frame (s : State) :
    (raiseDrained s).resetLine = s.resetLine ∧ (raiseDrained s).holdLine = s.holdLine ∧
    (raiseDrained s).part = s.part ∧ (raiseDrained s).tagTable = s.tagTable ∧
    (raiseDrained s).refusals = s.refusals ∧ (raiseDrained s).slots = s.slots ∧
    (raiseDrained s).arrival = s.arrival ∧ (raiseDrained s).queues = s.queues ∧ (raiseDrained s).lines = s.lines ∧
    (raiseDrained s).entries = s.entries ∧ (raiseDrained s).balances = s.balances ∧
    (raiseDrained s).refillCount = s.refillCount ∧ (raiseDrained s).periodInForce = s.periodInForce ∧
    (raiseDrained s).urgent = s.urgent ∧ (raiseDrained s).pointer = s.pointer ∧ (raiseDrained s).tags = s.tags ∧
    (raiseDrained s).fences = s.fences ∧ (raiseDrained s).fenceOrder = s.fenceOrder ∧
    (raiseDrained s).faults = s.faults ∧ (raiseDrained s).overflow = s.overflow ∧
    (raiseDrained s).readout = s.readout ∧ (raiseDrained s).responses = s.responses ∧
    (raiseDrained s).staged = s.staged ∧ (raiseDrained s).active = s.active ∧ (raiseDrained s).epoch = s.epoch ∧
    (raiseDrained s).shortFrame = s.shortFrame ∧ (raiseDrained s).timeBase = s.timeBase ∧
    (raiseDrained s).counters = s.counters ∧ (raiseDrained s).answer = s.answer ∧
    (raiseDrained s).issued = s.issued ∧ (raiseDrained s).taken = s.taken ∧ (raiseDrained s).mgmt = s.mgmt ∧
    (raiseDrained s).pending = s.pending := by
  simp [raiseDrained]

@[simp] theorem raiseRestarted_frame (s : State) :
    (raiseRestarted s).resetLine = s.resetLine ∧ (raiseRestarted s).holdLine = s.holdLine ∧
    (raiseRestarted s).part = s.part ∧ (raiseRestarted s).tagTable = s.tagTable ∧
    (raiseRestarted s).refusals = s.refusals ∧ (raiseRestarted s).slots = s.slots ∧
    (raiseRestarted s).arrival = s.arrival ∧ (raiseRestarted s).queues = s.queues ∧
    (raiseRestarted s).lines = s.lines ∧ (raiseRestarted s).entries = s.entries ∧
    (raiseRestarted s).balances = s.balances ∧ (raiseRestarted s).refillCount = s.refillCount ∧
    (raiseRestarted s).periodInForce = s.periodInForce ∧ (raiseRestarted s).urgent = s.urgent ∧
    (raiseRestarted s).pointer = s.pointer ∧ (raiseRestarted s).tags = s.tags ∧
    (raiseRestarted s).fences = s.fences ∧ (raiseRestarted s).fenceOrder = s.fenceOrder ∧
    (raiseRestarted s).faults = s.faults ∧ (raiseRestarted s).overflow = s.overflow ∧
    (raiseRestarted s).readout = s.readout ∧ (raiseRestarted s).responses = s.responses ∧
    (raiseRestarted s).staged = s.staged ∧ (raiseRestarted s).active = s.active ∧
    (raiseRestarted s).epoch = s.epoch ∧ (raiseRestarted s).shortFrame = s.shortFrame ∧
    (raiseRestarted s).timeBase = s.timeBase ∧ (raiseRestarted s).counters = s.counters ∧
    (raiseRestarted s).answer = s.answer ∧ (raiseRestarted s).issued = s.issued ∧
    (raiseRestarted s).taken = s.taken ∧ (raiseRestarted s).mgmt = s.mgmt ∧ (raiseRestarted s).pending = s.pending := by
  simp [raiseRestarted]

/-! ## Shared operations -/

@[simp] theorem publish_frame (b s : State) :
    (publish b s).resetLine = s.resetLine ∧ (publish b s).holdLine = s.holdLine ∧ (publish b s).part = s.part ∧
    (publish b s).tagTable = s.tagTable ∧ (publish b s).refusals = s.refusals ∧ (publish b s).slots = s.slots ∧
    (publish b s).arrival = s.arrival ∧ (publish b s).queues = s.queues ∧ (publish b s).lines = s.lines ∧
    (publish b s).entries = s.entries ∧ (publish b s).balances = s.balances ∧
    (publish b s).refillCount = s.refillCount ∧ (publish b s).periodInForce = s.periodInForce ∧
    (publish b s).urgent = s.urgent ∧ (publish b s).pointer = s.pointer ∧ (publish b s).tags = s.tags ∧
    (publish b s).fences = s.fences ∧ (publish b s).fenceOrder = s.fenceOrder ∧ (publish b s).faults = s.faults ∧
    (publish b s).overflow = s.overflow ∧ (publish b s).readout = s.readout ∧ (publish b s).staged = s.staged ∧
    (publish b s).active = s.active ∧ (publish b s).epoch = s.epoch ∧ (publish b s).shortFrame = s.shortFrame ∧
    (publish b s).timeBase = s.timeBase ∧ (publish b s).causes = s.causes ∧ (publish b s).counters = s.counters ∧
    (publish b s).answer = s.answer ∧ (publish b s).issued = s.issued ∧ (publish b s).taken = s.taken ∧
    (publish b s).mgmt = s.mgmt ∧ (publish b s).pending = s.pending := by
  simp [publish]

@[simp] theorem mapFences_frame (s : State) (f) :
    (mapFences s f).resetLine = s.resetLine ∧ (mapFences s f).holdLine = s.holdLine ∧
    (mapFences s f).part = s.part ∧ (mapFences s f).tagTable = s.tagTable ∧
    (mapFences s f).refusals = s.refusals ∧ (mapFences s f).slots = s.slots ∧
    (mapFences s f).arrival = s.arrival ∧ (mapFences s f).queues = s.queues ∧ (mapFences s f).lines = s.lines ∧
    (mapFences s f).entries = s.entries ∧ (mapFences s f).balances = s.balances ∧
    (mapFences s f).refillCount = s.refillCount ∧ (mapFences s f).periodInForce = s.periodInForce ∧
    (mapFences s f).urgent = s.urgent ∧ (mapFences s f).pointer = s.pointer ∧ (mapFences s f).tags = s.tags ∧
    (mapFences s f).fenceOrder = s.fenceOrder ∧ (mapFences s f).faults = s.faults ∧
    (mapFences s f).overflow = s.overflow ∧ (mapFences s f).readout = s.readout ∧
    (mapFences s f).responses = s.responses ∧ (mapFences s f).staged = s.staged ∧
    (mapFences s f).active = s.active ∧ (mapFences s f).epoch = s.epoch ∧
    (mapFences s f).shortFrame = s.shortFrame ∧ (mapFences s f).timeBase = s.timeBase ∧
    (mapFences s f).causes = s.causes ∧ (mapFences s f).counters = s.counters ∧
    (mapFences s f).answer = s.answer ∧ (mapFences s f).issued = s.issued ∧ (mapFences s f).taken = s.taken ∧
    (mapFences s f).mgmt = s.mgmt ∧ (mapFences s f).pending = s.pending := by
  simp [mapFences]

@[simp] theorem departSlot_frame (s : State) (i) :
    (departSlot s i).resetLine = s.resetLine ∧ (departSlot s i).holdLine = s.holdLine ∧
    (departSlot s i).part = s.part ∧ (departSlot s i).tagTable = s.tagTable ∧
    (departSlot s i).refusals = s.refusals ∧ (departSlot s i).slots = s.slots ∧
    (departSlot s i).arrival = s.arrival ∧ (departSlot s i).queues = s.queues ∧ (departSlot s i).lines = s.lines ∧
    (departSlot s i).entries = s.entries ∧ (departSlot s i).balances = s.balances ∧
    (departSlot s i).refillCount = s.refillCount ∧ (departSlot s i).periodInForce = s.periodInForce ∧
    (departSlot s i).urgent = s.urgent ∧ (departSlot s i).pointer = s.pointer ∧ (departSlot s i).tags = s.tags ∧
    (departSlot s i).fenceOrder = s.fenceOrder ∧ (departSlot s i).faults = s.faults ∧
    (departSlot s i).overflow = s.overflow ∧ (departSlot s i).readout = s.readout ∧
    (departSlot s i).responses = s.responses ∧ (departSlot s i).staged = s.staged ∧
    (departSlot s i).active = s.active ∧ (departSlot s i).epoch = s.epoch ∧
    (departSlot s i).shortFrame = s.shortFrame ∧ (departSlot s i).timeBase = s.timeBase ∧
    (departSlot s i).causes = s.causes ∧ (departSlot s i).counters = s.counters ∧
    (departSlot s i).answer = s.answer ∧ (departSlot s i).issued = s.issued ∧ (departSlot s i).taken = s.taken ∧
    (departSlot s i).mgmt = s.mgmt ∧ (departSlot s i).pending = s.pending := by
  simp [departSlot]

@[simp] theorem departFence_frame (s : State) (k) :
    (departFence s k).resetLine = s.resetLine ∧ (departFence s k).holdLine = s.holdLine ∧
    (departFence s k).part = s.part ∧ (departFence s k).tagTable = s.tagTable ∧
    (departFence s k).refusals = s.refusals ∧ (departFence s k).slots = s.slots ∧
    (departFence s k).arrival = s.arrival ∧ (departFence s k).queues = s.queues ∧
    (departFence s k).lines = s.lines ∧ (departFence s k).entries = s.entries ∧
    (departFence s k).balances = s.balances ∧ (departFence s k).refillCount = s.refillCount ∧
    (departFence s k).periodInForce = s.periodInForce ∧ (departFence s k).urgent = s.urgent ∧
    (departFence s k).pointer = s.pointer ∧ (departFence s k).tags = s.tags ∧
    (departFence s k).fenceOrder = s.fenceOrder ∧ (departFence s k).faults = s.faults ∧
    (departFence s k).overflow = s.overflow ∧ (departFence s k).readout = s.readout ∧
    (departFence s k).responses = s.responses ∧ (departFence s k).staged = s.staged ∧
    (departFence s k).active = s.active ∧ (departFence s k).epoch = s.epoch ∧
    (departFence s k).shortFrame = s.shortFrame ∧ (departFence s k).timeBase = s.timeBase ∧
    (departFence s k).causes = s.causes ∧ (departFence s k).counters = s.counters ∧
    (departFence s k).answer = s.answer ∧ (departFence s k).issued = s.issued ∧
    (departFence s k).taken = s.taken ∧ (departFence s k).mgmt = s.mgmt ∧ (departFence s k).pending = s.pending := by
  simp [departFence]

@[simp] theorem departEntry_frame (s : State) (e) :
    (departEntry s e).resetLine = s.resetLine ∧ (departEntry s e).holdLine = s.holdLine ∧
    (departEntry s e).part = s.part ∧ (departEntry s e).tagTable = s.tagTable ∧
    (departEntry s e).refusals = s.refusals ∧ (departEntry s e).slots = s.slots ∧
    (departEntry s e).arrival = s.arrival ∧ (departEntry s e).queues = s.queues ∧
    (departEntry s e).lines = s.lines ∧ (departEntry s e).entries = s.entries ∧
    (departEntry s e).balances = s.balances ∧ (departEntry s e).refillCount = s.refillCount ∧
    (departEntry s e).periodInForce = s.periodInForce ∧ (departEntry s e).urgent = s.urgent ∧
    (departEntry s e).pointer = s.pointer ∧ (departEntry s e).tags = s.tags ∧
    (departEntry s e).fenceOrder = s.fenceOrder ∧ (departEntry s e).faults = s.faults ∧
    (departEntry s e).overflow = s.overflow ∧ (departEntry s e).readout = s.readout ∧
    (departEntry s e).responses = s.responses ∧ (departEntry s e).staged = s.staged ∧
    (departEntry s e).active = s.active ∧ (departEntry s e).epoch = s.epoch ∧
    (departEntry s e).shortFrame = s.shortFrame ∧ (departEntry s e).timeBase = s.timeBase ∧
    (departEntry s e).causes = s.causes ∧ (departEntry s e).counters = s.counters ∧
    (departEntry s e).answer = s.answer ∧ (departEntry s e).issued = s.issued ∧
    (departEntry s e).taken = s.taken ∧ (departEntry s e).mgmt = s.mgmt ∧ (departEntry s e).pending = s.pending := by
  simp [departEntry]

@[simp] theorem markEntryFences_frame (s : State) (e) :
    (markEntryFences s e).resetLine = s.resetLine ∧ (markEntryFences s e).holdLine = s.holdLine ∧
    (markEntryFences s e).part = s.part ∧ (markEntryFences s e).tagTable = s.tagTable ∧
    (markEntryFences s e).refusals = s.refusals ∧ (markEntryFences s e).slots = s.slots ∧
    (markEntryFences s e).arrival = s.arrival ∧ (markEntryFences s e).queues = s.queues ∧
    (markEntryFences s e).lines = s.lines ∧ (markEntryFences s e).entries = s.entries ∧
    (markEntryFences s e).balances = s.balances ∧ (markEntryFences s e).refillCount = s.refillCount ∧
    (markEntryFences s e).periodInForce = s.periodInForce ∧ (markEntryFences s e).urgent = s.urgent ∧
    (markEntryFences s e).pointer = s.pointer ∧ (markEntryFences s e).tags = s.tags ∧
    (markEntryFences s e).fenceOrder = s.fenceOrder ∧ (markEntryFences s e).faults = s.faults ∧
    (markEntryFences s e).overflow = s.overflow ∧ (markEntryFences s e).readout = s.readout ∧
    (markEntryFences s e).responses = s.responses ∧ (markEntryFences s e).staged = s.staged ∧
    (markEntryFences s e).active = s.active ∧ (markEntryFences s e).epoch = s.epoch ∧
    (markEntryFences s e).shortFrame = s.shortFrame ∧ (markEntryFences s e).timeBase = s.timeBase ∧
    (markEntryFences s e).causes = s.causes ∧ (markEntryFences s e).counters = s.counters ∧
    (markEntryFences s e).answer = s.answer ∧ (markEntryFences s e).issued = s.issued ∧
    (markEntryFences s e).taken = s.taken ∧ (markEntryFences s e).mgmt = s.mgmt ∧
    (markEntryFences s e).pending = s.pending := by
  simp [markEntryFences]

@[simp] theorem markSlotFences_frame (s : State) (i) :
    (markSlotFences s i).resetLine = s.resetLine ∧ (markSlotFences s i).holdLine = s.holdLine ∧
    (markSlotFences s i).part = s.part ∧ (markSlotFences s i).tagTable = s.tagTable ∧
    (markSlotFences s i).refusals = s.refusals ∧ (markSlotFences s i).slots = s.slots ∧
    (markSlotFences s i).arrival = s.arrival ∧ (markSlotFences s i).queues = s.queues ∧
    (markSlotFences s i).lines = s.lines ∧ (markSlotFences s i).entries = s.entries ∧
    (markSlotFences s i).balances = s.balances ∧ (markSlotFences s i).refillCount = s.refillCount ∧
    (markSlotFences s i).periodInForce = s.periodInForce ∧ (markSlotFences s i).urgent = s.urgent ∧
    (markSlotFences s i).pointer = s.pointer ∧ (markSlotFences s i).tags = s.tags ∧
    (markSlotFences s i).fenceOrder = s.fenceOrder ∧ (markSlotFences s i).faults = s.faults ∧
    (markSlotFences s i).overflow = s.overflow ∧ (markSlotFences s i).readout = s.readout ∧
    (markSlotFences s i).responses = s.responses ∧ (markSlotFences s i).staged = s.staged ∧
    (markSlotFences s i).active = s.active ∧ (markSlotFences s i).epoch = s.epoch ∧
    (markSlotFences s i).shortFrame = s.shortFrame ∧ (markSlotFences s i).timeBase = s.timeBase ∧
    (markSlotFences s i).causes = s.causes ∧ (markSlotFences s i).counters = s.counters ∧
    (markSlotFences s i).answer = s.answer ∧ (markSlotFences s i).issued = s.issued ∧
    (markSlotFences s i).taken = s.taken ∧ (markSlotFences s i).mgmt = s.mgmt ∧
    (markSlotFences s i).pending = s.pending := by
  simp [markSlotFences]

@[simp] theorem handRecord_frame (s : State) (r) :
    (handRecord s r).resetLine = s.resetLine ∧ (handRecord s r).holdLine = s.holdLine ∧
    (handRecord s r).part = s.part ∧ (handRecord s r).tagTable = s.tagTable ∧
    (handRecord s r).refusals = s.refusals ∧ (handRecord s r).slots = s.slots ∧
    (handRecord s r).arrival = s.arrival ∧ (handRecord s r).queues = s.queues ∧ (handRecord s r).lines = s.lines ∧
    (handRecord s r).entries = s.entries ∧ (handRecord s r).balances = s.balances ∧
    (handRecord s r).refillCount = s.refillCount ∧ (handRecord s r).periodInForce = s.periodInForce ∧
    (handRecord s r).urgent = s.urgent ∧ (handRecord s r).pointer = s.pointer ∧ (handRecord s r).tags = s.tags ∧
    (handRecord s r).fences = s.fences ∧ (handRecord s r).fenceOrder = s.fenceOrder ∧
    (handRecord s r).readout = s.readout ∧ (handRecord s r).responses = s.responses ∧
    (handRecord s r).staged = s.staged ∧ (handRecord s r).active = s.active ∧ (handRecord s r).epoch = s.epoch ∧
    (handRecord s r).shortFrame = s.shortFrame ∧ (handRecord s r).timeBase = s.timeBase ∧
    (handRecord s r).counters = s.counters ∧ (handRecord s r).answer = s.answer ∧
    (handRecord s r).issued = s.issued ∧ (handRecord s r).taken = s.taken ∧ (handRecord s r).mgmt = s.mgmt ∧
    (handRecord s r).pending = s.pending := by
  simp only [handRecord]
  repeat' split
  all_goals simp

@[simp] theorem freeSlot_frame (s : State) (i) :
    (freeSlot s i).resetLine = s.resetLine ∧ (freeSlot s i).holdLine = s.holdLine ∧ (freeSlot s i).part = s.part ∧
    (freeSlot s i).tagTable = s.tagTable ∧ (freeSlot s i).refusals = s.refusals ∧
    (freeSlot s i).queues = s.queues ∧ (freeSlot s i).lines = s.lines ∧ (freeSlot s i).entries = s.entries ∧
    (freeSlot s i).balances = s.balances ∧ (freeSlot s i).refillCount = s.refillCount ∧
    (freeSlot s i).periodInForce = s.periodInForce ∧ (freeSlot s i).urgent = s.urgent ∧
    (freeSlot s i).pointer = s.pointer ∧ (freeSlot s i).tags = s.tags ∧ (freeSlot s i).fenceOrder = s.fenceOrder ∧
    (freeSlot s i).faults = s.faults ∧ (freeSlot s i).overflow = s.overflow ∧ (freeSlot s i).readout = s.readout ∧
    (freeSlot s i).responses = s.responses ∧ (freeSlot s i).staged = s.staged ∧ (freeSlot s i).active = s.active ∧
    (freeSlot s i).epoch = s.epoch ∧ (freeSlot s i).shortFrame = s.shortFrame ∧
    (freeSlot s i).timeBase = s.timeBase ∧ (freeSlot s i).causes = s.causes ∧
    (freeSlot s i).counters = s.counters ∧ (freeSlot s i).answer = s.answer ∧ (freeSlot s i).issued = s.issued ∧
    (freeSlot s i).taken = s.taken ∧ (freeSlot s i).mgmt = s.mgmt ∧ (freeSlot s i).pending = s.pending := by
  simp [freeSlot]

@[simp] theorem updateLine_frame (s : State) (a) (f) :
    (updateLine s a f).resetLine = s.resetLine ∧ (updateLine s a f).holdLine = s.holdLine ∧
    (updateLine s a f).part = s.part ∧ (updateLine s a f).tagTable = s.tagTable ∧
    (updateLine s a f).refusals = s.refusals ∧ (updateLine s a f).slots = s.slots ∧
    (updateLine s a f).arrival = s.arrival ∧ (updateLine s a f).queues = s.queues ∧
    (updateLine s a f).entries = s.entries ∧ (updateLine s a f).balances = s.balances ∧
    (updateLine s a f).refillCount = s.refillCount ∧ (updateLine s a f).periodInForce = s.periodInForce ∧
    (updateLine s a f).urgent = s.urgent ∧ (updateLine s a f).pointer = s.pointer ∧
    (updateLine s a f).tags = s.tags ∧ (updateLine s a f).fences = s.fences ∧
    (updateLine s a f).fenceOrder = s.fenceOrder ∧ (updateLine s a f).faults = s.faults ∧
    (updateLine s a f).overflow = s.overflow ∧ (updateLine s a f).readout = s.readout ∧
    (updateLine s a f).responses = s.responses ∧ (updateLine s a f).staged = s.staged ∧
    (updateLine s a f).active = s.active ∧ (updateLine s a f).epoch = s.epoch ∧
    (updateLine s a f).shortFrame = s.shortFrame ∧ (updateLine s a f).timeBase = s.timeBase ∧
    (updateLine s a f).causes = s.causes ∧ (updateLine s a f).counters = s.counters ∧
    (updateLine s a f).answer = s.answer ∧ (updateLine s a f).issued = s.issued ∧
    (updateLine s a f).taken = s.taken ∧ (updateLine s a f).mgmt = s.mgmt ∧ (updateLine s a f).pending = s.pending := by
  simp [updateLine]

@[simp] theorem joinLine_frame (s : State) (a) (i) :
    (joinLine s a i).resetLine = s.resetLine ∧ (joinLine s a i).holdLine = s.holdLine ∧
    (joinLine s a i).part = s.part ∧ (joinLine s a i).tagTable = s.tagTable ∧
    (joinLine s a i).refusals = s.refusals ∧ (joinLine s a i).slots = s.slots ∧
    (joinLine s a i).arrival = s.arrival ∧ (joinLine s a i).queues = s.queues ∧
    (joinLine s a i).entries = s.entries ∧ (joinLine s a i).balances = s.balances ∧
    (joinLine s a i).refillCount = s.refillCount ∧ (joinLine s a i).periodInForce = s.periodInForce ∧
    (joinLine s a i).urgent = s.urgent ∧ (joinLine s a i).pointer = s.pointer ∧ (joinLine s a i).tags = s.tags ∧
    (joinLine s a i).fences = s.fences ∧ (joinLine s a i).fenceOrder = s.fenceOrder ∧
    (joinLine s a i).faults = s.faults ∧ (joinLine s a i).overflow = s.overflow ∧
    (joinLine s a i).readout = s.readout ∧ (joinLine s a i).responses = s.responses ∧
    (joinLine s a i).staged = s.staged ∧ (joinLine s a i).active = s.active ∧ (joinLine s a i).epoch = s.epoch ∧
    (joinLine s a i).shortFrame = s.shortFrame ∧ (joinLine s a i).timeBase = s.timeBase ∧
    (joinLine s a i).causes = s.causes ∧ (joinLine s a i).counters = s.counters ∧
    (joinLine s a i).answer = s.answer ∧ (joinLine s a i).issued = s.issued ∧ (joinLine s a i).taken = s.taken ∧
    (joinLine s a i).mgmt = s.mgmt ∧ (joinLine s a i).pending = s.pending := by
  simp only [joinLine]
  repeat' split
  all_goals simp

@[simp] theorem leaveLine_frame (s : State) (a) (i) :
    (leaveLine s a i).resetLine = s.resetLine ∧ (leaveLine s a i).holdLine = s.holdLine ∧
    (leaveLine s a i).part = s.part ∧ (leaveLine s a i).tagTable = s.tagTable ∧
    (leaveLine s a i).refusals = s.refusals ∧ (leaveLine s a i).slots = s.slots ∧
    (leaveLine s a i).arrival = s.arrival ∧ (leaveLine s a i).queues = s.queues ∧
    (leaveLine s a i).entries = s.entries ∧ (leaveLine s a i).balances = s.balances ∧
    (leaveLine s a i).refillCount = s.refillCount ∧ (leaveLine s a i).periodInForce = s.periodInForce ∧
    (leaveLine s a i).urgent = s.urgent ∧ (leaveLine s a i).pointer = s.pointer ∧
    (leaveLine s a i).tags = s.tags ∧ (leaveLine s a i).fences = s.fences ∧
    (leaveLine s a i).fenceOrder = s.fenceOrder ∧ (leaveLine s a i).faults = s.faults ∧
    (leaveLine s a i).overflow = s.overflow ∧ (leaveLine s a i).readout = s.readout ∧
    (leaveLine s a i).responses = s.responses ∧ (leaveLine s a i).staged = s.staged ∧
    (leaveLine s a i).active = s.active ∧ (leaveLine s a i).epoch = s.epoch ∧
    (leaveLine s a i).shortFrame = s.shortFrame ∧ (leaveLine s a i).timeBase = s.timeBase ∧
    (leaveLine s a i).causes = s.causes ∧ (leaveLine s a i).counters = s.counters ∧
    (leaveLine s a i).answer = s.answer ∧ (leaveLine s a i).issued = s.issued ∧
    (leaveLine s a i).taken = s.taken ∧ (leaveLine s a i).mgmt = s.mgmt ∧ (leaveLine s a i).pending = s.pending := by
  simp [leaveLine]

@[simp] theorem setMergeRef_frame (s : State) (a) (r) :
    (setMergeRef s a r).resetLine = s.resetLine ∧ (setMergeRef s a r).holdLine = s.holdLine ∧
    (setMergeRef s a r).part = s.part ∧ (setMergeRef s a r).tagTable = s.tagTable ∧
    (setMergeRef s a r).refusals = s.refusals ∧ (setMergeRef s a r).slots = s.slots ∧
    (setMergeRef s a r).arrival = s.arrival ∧ (setMergeRef s a r).queues = s.queues ∧
    (setMergeRef s a r).entries = s.entries ∧ (setMergeRef s a r).balances = s.balances ∧
    (setMergeRef s a r).refillCount = s.refillCount ∧ (setMergeRef s a r).periodInForce = s.periodInForce ∧
    (setMergeRef s a r).urgent = s.urgent ∧ (setMergeRef s a r).pointer = s.pointer ∧
    (setMergeRef s a r).tags = s.tags ∧ (setMergeRef s a r).fences = s.fences ∧
    (setMergeRef s a r).fenceOrder = s.fenceOrder ∧ (setMergeRef s a r).faults = s.faults ∧
    (setMergeRef s a r).overflow = s.overflow ∧ (setMergeRef s a r).readout = s.readout ∧
    (setMergeRef s a r).responses = s.responses ∧ (setMergeRef s a r).staged = s.staged ∧
    (setMergeRef s a r).active = s.active ∧ (setMergeRef s a r).epoch = s.epoch ∧
    (setMergeRef s a r).shortFrame = s.shortFrame ∧ (setMergeRef s a r).timeBase = s.timeBase ∧
    (setMergeRef s a r).causes = s.causes ∧ (setMergeRef s a r).counters = s.counters ∧
    (setMergeRef s a r).answer = s.answer ∧ (setMergeRef s a r).issued = s.issued ∧
    (setMergeRef s a r).taken = s.taken ∧ (setMergeRef s a r).mgmt = s.mgmt ∧
    (setMergeRef s a r).pending = s.pending := by
  simp [setMergeRef]

@[simp] theorem tidyLine_frame (s : State) (a) :
    (tidyLine s a).resetLine = s.resetLine ∧ (tidyLine s a).holdLine = s.holdLine ∧ (tidyLine s a).part = s.part ∧
    (tidyLine s a).tagTable = s.tagTable ∧ (tidyLine s a).refusals = s.refusals ∧ (tidyLine s a).slots = s.slots ∧
    (tidyLine s a).arrival = s.arrival ∧ (tidyLine s a).queues = s.queues ∧ (tidyLine s a).entries = s.entries ∧
    (tidyLine s a).balances = s.balances ∧ (tidyLine s a).refillCount = s.refillCount ∧
    (tidyLine s a).periodInForce = s.periodInForce ∧ (tidyLine s a).urgent = s.urgent ∧
    (tidyLine s a).pointer = s.pointer ∧ (tidyLine s a).tags = s.tags ∧ (tidyLine s a).fences = s.fences ∧
    (tidyLine s a).fenceOrder = s.fenceOrder ∧ (tidyLine s a).faults = s.faults ∧
    (tidyLine s a).overflow = s.overflow ∧ (tidyLine s a).readout = s.readout ∧
    (tidyLine s a).responses = s.responses ∧ (tidyLine s a).staged = s.staged ∧ (tidyLine s a).active = s.active ∧
    (tidyLine s a).epoch = s.epoch ∧ (tidyLine s a).shortFrame = s.shortFrame ∧
    (tidyLine s a).timeBase = s.timeBase ∧ (tidyLine s a).causes = s.causes ∧
    (tidyLine s a).counters = s.counters ∧ (tidyLine s a).answer = s.answer ∧ (tidyLine s a).issued = s.issued ∧
    (tidyLine s a).taken = s.taken ∧ (tidyLine s a).mgmt = s.mgmt ∧ (tidyLine s a).pending = s.pending := by
  simp [tidyLine]

@[simp] theorem setEffective_frame (s : State) (p) :
    (setEffective s p).resetLine = s.resetLine ∧ (setEffective s p).holdLine = s.holdLine ∧
    (setEffective s p).part = s.part ∧ (setEffective s p).tagTable = s.tagTable ∧
    (setEffective s p).refusals = s.refusals ∧ (setEffective s p).arrival = s.arrival ∧
    (setEffective s p).queues = s.queues ∧ (setEffective s p).lines = s.lines ∧
    (setEffective s p).entries = s.entries ∧ (setEffective s p).balances = s.balances ∧
    (setEffective s p).refillCount = s.refillCount ∧ (setEffective s p).periodInForce = s.periodInForce ∧
    (setEffective s p).urgent = s.urgent ∧ (setEffective s p).pointer = s.pointer ∧
    (setEffective s p).tags = s.tags ∧ (setEffective s p).fences = s.fences ∧
    (setEffective s p).fenceOrder = s.fenceOrder ∧ (setEffective s p).faults = s.faults ∧
    (setEffective s p).overflow = s.overflow ∧ (setEffective s p).readout = s.readout ∧
    (setEffective s p).responses = s.responses ∧ (setEffective s p).staged = s.staged ∧
    (setEffective s p).active = s.active ∧ (setEffective s p).epoch = s.epoch ∧
    (setEffective s p).shortFrame = s.shortFrame ∧ (setEffective s p).timeBase = s.timeBase ∧
    (setEffective s p).causes = s.causes ∧ (setEffective s p).answer = s.answer ∧
    (setEffective s p).issued = s.issued ∧ (setEffective s p).taken = s.taken ∧ (setEffective s p).mgmt = s.mgmt ∧
    (setEffective s p).pending = s.pending := by
  simp only [setEffective]
  repeat' split
  all_goals simp

@[simp] theorem recompute_frame (s : State) (a) :
    (recompute s a).resetLine = s.resetLine ∧ (recompute s a).holdLine = s.holdLine ∧
    (recompute s a).part = s.part ∧ (recompute s a).tagTable = s.tagTable ∧
    (recompute s a).refusals = s.refusals ∧ (recompute s a).arrival = s.arrival ∧
    (recompute s a).queues = s.queues ∧ (recompute s a).lines = s.lines ∧ (recompute s a).entries = s.entries ∧
    (recompute s a).balances = s.balances ∧ (recompute s a).refillCount = s.refillCount ∧
    (recompute s a).periodInForce = s.periodInForce ∧ (recompute s a).urgent = s.urgent ∧
    (recompute s a).pointer = s.pointer ∧ (recompute s a).tags = s.tags ∧ (recompute s a).fences = s.fences ∧
    (recompute s a).fenceOrder = s.fenceOrder ∧ (recompute s a).faults = s.faults ∧
    (recompute s a).overflow = s.overflow ∧ (recompute s a).readout = s.readout ∧
    (recompute s a).responses = s.responses ∧ (recompute s a).staged = s.staged ∧
    (recompute s a).active = s.active ∧ (recompute s a).epoch = s.epoch ∧
    (recompute s a).shortFrame = s.shortFrame ∧ (recompute s a).timeBase = s.timeBase ∧
    (recompute s a).causes = s.causes ∧ (recompute s a).answer = s.answer ∧ (recompute s a).issued = s.issued ∧
    (recompute s a).taken = s.taken ∧ (recompute s a).mgmt = s.mgmt ∧ (recompute s a).pending = s.pending :=
  ⟨foldl_eq State.resetLine (fun t i => by simp) _ s, foldl_eq State.holdLine (fun t i => by simp) _ s, foldl_eq State.part (fun t i => by simp) _ s, foldl_eq State.tagTable (fun t i => by simp) _ s, foldl_eq State.refusals (fun t i => by simp) _ s, foldl_eq State.arrival (fun t i => by simp) _ s, foldl_eq State.queues (fun t i => by simp) _ s, foldl_eq State.lines (fun t i => by simp) _ s, foldl_eq State.entries (fun t i => by simp) _ s, foldl_eq State.balances (fun t i => by simp) _ s, foldl_eq State.refillCount (fun t i => by simp) _ s, foldl_eq State.periodInForce (fun t i => by simp) _ s, foldl_eq State.urgent (fun t i => by simp) _ s, foldl_eq State.pointer (fun t i => by simp) _ s, foldl_eq State.tags (fun t i => by simp) _ s, foldl_eq State.fences (fun t i => by simp) _ s, foldl_eq State.fenceOrder (fun t i => by simp) _ s, foldl_eq State.faults (fun t i => by simp) _ s, foldl_eq State.overflow (fun t i => by simp) _ s, foldl_eq State.readout (fun t i => by simp) _ s, foldl_eq State.responses (fun t i => by simp) _ s, foldl_eq State.staged (fun t i => by simp) _ s, foldl_eq State.active (fun t i => by simp) _ s, foldl_eq State.epoch (fun t i => by simp) _ s, foldl_eq State.shortFrame (fun t i => by simp) _ s, foldl_eq State.timeBase (fun t i => by simp) _ s, foldl_eq State.causes (fun t i => by simp) _ s, foldl_eq State.answer (fun t i => by simp) _ s, foldl_eq State.issued (fun t i => by simp) _ s, foldl_eq State.taken (fun t i => by simp) _ s, foldl_eq State.mgmt (fun t i => by simp) _ s, foldl_eq State.pending (fun t i => by simp) _ s⟩

@[simp] theorem addReason_frame (s : State) (e) (r) :
    (addReason s e r).resetLine = s.resetLine ∧ (addReason s e r).holdLine = s.holdLine ∧
    (addReason s e r).part = s.part ∧ (addReason s e r).tagTable = s.tagTable ∧
    (addReason s e r).refusals = s.refusals ∧ (addReason s e r).slots = s.slots ∧
    (addReason s e r).arrival = s.arrival ∧ (addReason s e r).queues = s.queues ∧
    (addReason s e r).lines = s.lines ∧ (addReason s e r).balances = s.balances ∧
    (addReason s e r).refillCount = s.refillCount ∧ (addReason s e r).periodInForce = s.periodInForce ∧
    (addReason s e r).urgent = s.urgent ∧ (addReason s e r).pointer = s.pointer ∧
    (addReason s e r).tags = s.tags ∧ (addReason s e r).fences = s.fences ∧
    (addReason s e r).fenceOrder = s.fenceOrder ∧ (addReason s e r).faults = s.faults ∧
    (addReason s e r).overflow = s.overflow ∧ (addReason s e r).readout = s.readout ∧
    (addReason s e r).responses = s.responses ∧ (addReason s e r).staged = s.staged ∧
    (addReason s e r).active = s.active ∧ (addReason s e r).epoch = s.epoch ∧
    (addReason s e r).shortFrame = s.shortFrame ∧ (addReason s e r).timeBase = s.timeBase ∧
    (addReason s e r).causes = s.causes ∧ (addReason s e r).counters = s.counters ∧
    (addReason s e r).answer = s.answer ∧ (addReason s e r).issued = s.issued ∧
    (addReason s e r).taken = s.taken ∧ (addReason s e r).mgmt = s.mgmt ∧ (addReason s e r).pending = s.pending := by
  simp [addReason]

@[simp] theorem judgeStrict_frame (s : State) (a) :
    (judgeStrict s a).resetLine = s.resetLine ∧ (judgeStrict s a).holdLine = s.holdLine ∧
    (judgeStrict s a).part = s.part ∧ (judgeStrict s a).tagTable = s.tagTable ∧
    (judgeStrict s a).refusals = s.refusals ∧ (judgeStrict s a).slots = s.slots ∧
    (judgeStrict s a).arrival = s.arrival ∧ (judgeStrict s a).queues = s.queues ∧
    (judgeStrict s a).lines = s.lines ∧ (judgeStrict s a).balances = s.balances ∧
    (judgeStrict s a).refillCount = s.refillCount ∧ (judgeStrict s a).periodInForce = s.periodInForce ∧
    (judgeStrict s a).urgent = s.urgent ∧ (judgeStrict s a).pointer = s.pointer ∧
    (judgeStrict s a).tags = s.tags ∧ (judgeStrict s a).fences = s.fences ∧
    (judgeStrict s a).fenceOrder = s.fenceOrder ∧ (judgeStrict s a).faults = s.faults ∧
    (judgeStrict s a).overflow = s.overflow ∧ (judgeStrict s a).readout = s.readout ∧
    (judgeStrict s a).responses = s.responses ∧ (judgeStrict s a).staged = s.staged ∧
    (judgeStrict s a).active = s.active ∧ (judgeStrict s a).epoch = s.epoch ∧
    (judgeStrict s a).shortFrame = s.shortFrame ∧ (judgeStrict s a).timeBase = s.timeBase ∧
    (judgeStrict s a).causes = s.causes ∧ (judgeStrict s a).counters = s.counters ∧
    (judgeStrict s a).answer = s.answer ∧ (judgeStrict s a).issued = s.issued ∧
    (judgeStrict s a).taken = s.taken ∧ (judgeStrict s a).mgmt = s.mgmt ∧ (judgeStrict s a).pending = s.pending := by
  simp only [judgeStrict]
  repeat' split
  all_goals simp

@[simp] theorem judgePressure_frame (s : State) :
    (judgePressure s).resetLine = s.resetLine ∧ (judgePressure s).holdLine = s.holdLine ∧
    (judgePressure s).part = s.part ∧ (judgePressure s).tagTable = s.tagTable ∧
    (judgePressure s).refusals = s.refusals ∧ (judgePressure s).slots = s.slots ∧
    (judgePressure s).arrival = s.arrival ∧ (judgePressure s).queues = s.queues ∧
    (judgePressure s).lines = s.lines ∧ (judgePressure s).balances = s.balances ∧
    (judgePressure s).refillCount = s.refillCount ∧ (judgePressure s).periodInForce = s.periodInForce ∧
    (judgePressure s).urgent = s.urgent ∧ (judgePressure s).pointer = s.pointer ∧
    (judgePressure s).tags = s.tags ∧ (judgePressure s).fences = s.fences ∧
    (judgePressure s).fenceOrder = s.fenceOrder ∧ (judgePressure s).faults = s.faults ∧
    (judgePressure s).overflow = s.overflow ∧ (judgePressure s).readout = s.readout ∧
    (judgePressure s).responses = s.responses ∧ (judgePressure s).staged = s.staged ∧
    (judgePressure s).active = s.active ∧ (judgePressure s).epoch = s.epoch ∧
    (judgePressure s).shortFrame = s.shortFrame ∧ (judgePressure s).timeBase = s.timeBase ∧
    (judgePressure s).causes = s.causes ∧ (judgePressure s).counters = s.counters ∧
    (judgePressure s).answer = s.answer ∧ (judgePressure s).issued = s.issued ∧
    (judgePressure s).taken = s.taken ∧ (judgePressure s).mgmt = s.mgmt ∧ (judgePressure s).pending = s.pending := by
  simp only [judgePressure]
  repeat' split
  all_goals simp

@[simp] theorem judgeAged_frame (s : State) (e) :
    (judgeAged s e).resetLine = s.resetLine ∧ (judgeAged s e).holdLine = s.holdLine ∧
    (judgeAged s e).part = s.part ∧ (judgeAged s e).tagTable = s.tagTable ∧
    (judgeAged s e).refusals = s.refusals ∧ (judgeAged s e).slots = s.slots ∧
    (judgeAged s e).arrival = s.arrival ∧ (judgeAged s e).queues = s.queues ∧ (judgeAged s e).lines = s.lines ∧
    (judgeAged s e).balances = s.balances ∧ (judgeAged s e).refillCount = s.refillCount ∧
    (judgeAged s e).periodInForce = s.periodInForce ∧ (judgeAged s e).urgent = s.urgent ∧
    (judgeAged s e).pointer = s.pointer ∧ (judgeAged s e).tags = s.tags ∧ (judgeAged s e).fences = s.fences ∧
    (judgeAged s e).fenceOrder = s.fenceOrder ∧ (judgeAged s e).faults = s.faults ∧
    (judgeAged s e).overflow = s.overflow ∧ (judgeAged s e).readout = s.readout ∧
    (judgeAged s e).responses = s.responses ∧ (judgeAged s e).staged = s.staged ∧
    (judgeAged s e).active = s.active ∧ (judgeAged s e).epoch = s.epoch ∧
    (judgeAged s e).shortFrame = s.shortFrame ∧ (judgeAged s e).timeBase = s.timeBase ∧
    (judgeAged s e).causes = s.causes ∧ (judgeAged s e).counters = s.counters ∧
    (judgeAged s e).answer = s.answer ∧ (judgeAged s e).issued = s.issued ∧ (judgeAged s e).taken = s.taken ∧
    (judgeAged s e).mgmt = s.mgmt ∧ (judgeAged s e).pending = s.pending := by
  simp only [judgeAged]
  repeat' split
  all_goals simp

@[simp] theorem judgeAllAged_frame (s : State) :
    (judgeAllAged s).resetLine = s.resetLine ∧ (judgeAllAged s).holdLine = s.holdLine ∧
    (judgeAllAged s).part = s.part ∧ (judgeAllAged s).tagTable = s.tagTable ∧
    (judgeAllAged s).refusals = s.refusals ∧ (judgeAllAged s).slots = s.slots ∧
    (judgeAllAged s).arrival = s.arrival ∧ (judgeAllAged s).queues = s.queues ∧ (judgeAllAged s).lines = s.lines ∧
    (judgeAllAged s).balances = s.balances ∧ (judgeAllAged s).refillCount = s.refillCount ∧
    (judgeAllAged s).periodInForce = s.periodInForce ∧ (judgeAllAged s).urgent = s.urgent ∧
    (judgeAllAged s).pointer = s.pointer ∧ (judgeAllAged s).tags = s.tags ∧ (judgeAllAged s).fences = s.fences ∧
    (judgeAllAged s).fenceOrder = s.fenceOrder ∧ (judgeAllAged s).faults = s.faults ∧
    (judgeAllAged s).overflow = s.overflow ∧ (judgeAllAged s).readout = s.readout ∧
    (judgeAllAged s).responses = s.responses ∧ (judgeAllAged s).staged = s.staged ∧
    (judgeAllAged s).active = s.active ∧ (judgeAllAged s).epoch = s.epoch ∧
    (judgeAllAged s).shortFrame = s.shortFrame ∧ (judgeAllAged s).timeBase = s.timeBase ∧
    (judgeAllAged s).causes = s.causes ∧ (judgeAllAged s).counters = s.counters ∧
    (judgeAllAged s).answer = s.answer ∧ (judgeAllAged s).issued = s.issued ∧ (judgeAllAged s).taken = s.taken ∧
    (judgeAllAged s).mgmt = s.mgmt ∧ (judgeAllAged s).pending = s.pending :=
  ⟨forEach_eq State.resetLine (fun t i => by simp) s, forEach_eq State.holdLine (fun t i => by simp) s, forEach_eq State.part (fun t i => by simp) s, forEach_eq State.tagTable (fun t i => by simp) s, forEach_eq State.refusals (fun t i => by simp) s, forEach_eq State.slots (fun t i => by simp) s, forEach_eq State.arrival (fun t i => by simp) s, forEach_eq State.queues (fun t i => by simp) s, forEach_eq State.lines (fun t i => by simp) s, forEach_eq State.balances (fun t i => by simp) s, forEach_eq State.refillCount (fun t i => by simp) s, forEach_eq State.periodInForce (fun t i => by simp) s, forEach_eq State.urgent (fun t i => by simp) s, forEach_eq State.pointer (fun t i => by simp) s, forEach_eq State.tags (fun t i => by simp) s, forEach_eq State.fences (fun t i => by simp) s, forEach_eq State.fenceOrder (fun t i => by simp) s, forEach_eq State.faults (fun t i => by simp) s, forEach_eq State.overflow (fun t i => by simp) s, forEach_eq State.readout (fun t i => by simp) s, forEach_eq State.responses (fun t i => by simp) s, forEach_eq State.staged (fun t i => by simp) s, forEach_eq State.active (fun t i => by simp) s, forEach_eq State.epoch (fun t i => by simp) s, forEach_eq State.shortFrame (fun t i => by simp) s, forEach_eq State.timeBase (fun t i => by simp) s, forEach_eq State.causes (fun t i => by simp) s, forEach_eq State.counters (fun t i => by simp) s, forEach_eq State.answer (fun t i => by simp) s, forEach_eq State.issued (fun t i => by simp) s, forEach_eq State.taken (fun t i => by simp) s, forEach_eq State.mgmt (fun t i => by simp) s, forEach_eq State.pending (fun t i => by simp) s⟩

@[simp] theorem freeEntry_frame (s : State) (e) :
    (freeEntry s e).resetLine = s.resetLine ∧ (freeEntry s e).holdLine = s.holdLine ∧
    (freeEntry s e).part = s.part ∧ (freeEntry s e).tagTable = s.tagTable ∧
    (freeEntry s e).refusals = s.refusals ∧ (freeEntry s e).slots = s.slots ∧
    (freeEntry s e).arrival = s.arrival ∧ (freeEntry s e).queues = s.queues ∧
    (freeEntry s e).balances = s.balances ∧ (freeEntry s e).refillCount = s.refillCount ∧
    (freeEntry s e).periodInForce = s.periodInForce ∧ (freeEntry s e).urgent = s.urgent ∧
    (freeEntry s e).pointer = s.pointer ∧ (freeEntry s e).tags = s.tags ∧
    (freeEntry s e).fenceOrder = s.fenceOrder ∧ (freeEntry s e).faults = s.faults ∧
    (freeEntry s e).overflow = s.overflow ∧ (freeEntry s e).readout = s.readout ∧
    (freeEntry s e).responses = s.responses ∧ (freeEntry s e).staged = s.staged ∧
    (freeEntry s e).active = s.active ∧ (freeEntry s e).epoch = s.epoch ∧
    (freeEntry s e).shortFrame = s.shortFrame ∧ (freeEntry s e).timeBase = s.timeBase ∧
    (freeEntry s e).causes = s.causes ∧ (freeEntry s e).counters = s.counters ∧
    (freeEntry s e).answer = s.answer ∧ (freeEntry s e).issued = s.issued ∧ (freeEntry s e).taken = s.taken ∧
    (freeEntry s e).mgmt = s.mgmt ∧ (freeEntry s e).pending = s.pending := by
  simp [freeEntry]

@[simp] theorem placeOp_frame (s : State) (t k a d src) :
    (placeOp s t k a d src).resetLine = s.resetLine ∧ (placeOp s t k a d src).holdLine = s.holdLine ∧
    (placeOp s t k a d src).part = s.part ∧ (placeOp s t k a d src).tagTable = s.tagTable ∧
    (placeOp s t k a d src).refusals = s.refusals ∧ (placeOp s t k a d src).slots = s.slots ∧
    (placeOp s t k a d src).arrival = s.arrival ∧ (placeOp s t k a d src).queues = s.queues ∧
    (placeOp s t k a d src).lines = s.lines ∧ (placeOp s t k a d src).entries = s.entries ∧
    (placeOp s t k a d src).balances = s.balances ∧ (placeOp s t k a d src).refillCount = s.refillCount ∧
    (placeOp s t k a d src).periodInForce = s.periodInForce ∧ (placeOp s t k a d src).urgent = s.urgent ∧
    (placeOp s t k a d src).pointer = s.pointer ∧ (placeOp s t k a d src).fences = s.fences ∧
    (placeOp s t k a d src).fenceOrder = s.fenceOrder ∧ (placeOp s t k a d src).faults = s.faults ∧
    (placeOp s t k a d src).overflow = s.overflow ∧ (placeOp s t k a d src).readout = s.readout ∧
    (placeOp s t k a d src).responses = s.responses ∧ (placeOp s t k a d src).staged = s.staged ∧
    (placeOp s t k a d src).active = s.active ∧ (placeOp s t k a d src).epoch = s.epoch ∧
    (placeOp s t k a d src).shortFrame = s.shortFrame ∧ (placeOp s t k a d src).timeBase = s.timeBase ∧
    (placeOp s t k a d src).causes = s.causes ∧ (placeOp s t k a d src).counters = s.counters ∧
    (placeOp s t k a d src).answer = s.answer ∧ (placeOp s t k a d src).taken = s.taken ∧
    (placeOp s t k a d src).mgmt = s.mgmt ∧ (placeOp s t k a d src).pending = s.pending := by
  simp [placeOp]

@[simp] theorem issueForSlot_frame (s : State) (i k) :
    (issueForSlot s i k).resetLine = s.resetLine ∧ (issueForSlot s i k).holdLine = s.holdLine ∧
    (issueForSlot s i k).part = s.part ∧ (issueForSlot s i k).tagTable = s.tagTable ∧
    (issueForSlot s i k).refusals = s.refusals ∧ (issueForSlot s i k).arrival = s.arrival ∧
    (issueForSlot s i k).queues = s.queues ∧ (issueForSlot s i k).lines = s.lines ∧
    (issueForSlot s i k).entries = s.entries ∧ (issueForSlot s i k).balances = s.balances ∧
    (issueForSlot s i k).refillCount = s.refillCount ∧ (issueForSlot s i k).periodInForce = s.periodInForce ∧
    (issueForSlot s i k).urgent = s.urgent ∧ (issueForSlot s i k).pointer = s.pointer ∧
    (issueForSlot s i k).fences = s.fences ∧ (issueForSlot s i k).fenceOrder = s.fenceOrder ∧
    (issueForSlot s i k).faults = s.faults ∧ (issueForSlot s i k).overflow = s.overflow ∧
    (issueForSlot s i k).readout = s.readout ∧ (issueForSlot s i k).responses = s.responses ∧
    (issueForSlot s i k).staged = s.staged ∧ (issueForSlot s i k).active = s.active ∧
    (issueForSlot s i k).epoch = s.epoch ∧ (issueForSlot s i k).shortFrame = s.shortFrame ∧
    (issueForSlot s i k).timeBase = s.timeBase ∧ (issueForSlot s i k).causes = s.causes ∧
    (issueForSlot s i k).counters = s.counters ∧ (issueForSlot s i k).answer = s.answer ∧
    (issueForSlot s i k).taken = s.taken ∧ (issueForSlot s i k).mgmt = s.mgmt ∧
    (issueForSlot s i k).pending = s.pending := by
  simp only [issueForSlot]
  repeat' split
  all_goals simp

@[simp] theorem issueForEntry_frame (s : State) (e) :
    (issueForEntry s e).resetLine = s.resetLine ∧ (issueForEntry s e).holdLine = s.holdLine ∧
    (issueForEntry s e).part = s.part ∧ (issueForEntry s e).tagTable = s.tagTable ∧
    (issueForEntry s e).refusals = s.refusals ∧ (issueForEntry s e).slots = s.slots ∧
    (issueForEntry s e).arrival = s.arrival ∧ (issueForEntry s e).queues = s.queues ∧
    (issueForEntry s e).lines = s.lines ∧ (issueForEntry s e).balances = s.balances ∧
    (issueForEntry s e).refillCount = s.refillCount ∧ (issueForEntry s e).periodInForce = s.periodInForce ∧
    (issueForEntry s e).urgent = s.urgent ∧ (issueForEntry s e).pointer = s.pointer ∧
    (issueForEntry s e).fences = s.fences ∧ (issueForEntry s e).fenceOrder = s.fenceOrder ∧
    (issueForEntry s e).faults = s.faults ∧ (issueForEntry s e).overflow = s.overflow ∧
    (issueForEntry s e).readout = s.readout ∧ (issueForEntry s e).responses = s.responses ∧
    (issueForEntry s e).staged = s.staged ∧ (issueForEntry s e).active = s.active ∧
    (issueForEntry s e).epoch = s.epoch ∧ (issueForEntry s e).shortFrame = s.shortFrame ∧
    (issueForEntry s e).timeBase = s.timeBase ∧ (issueForEntry s e).causes = s.causes ∧
    (issueForEntry s e).counters = s.counters ∧ (issueForEntry s e).answer = s.answer ∧
    (issueForEntry s e).taken = s.taken ∧ (issueForEntry s e).mgmt = s.mgmt ∧
    (issueForEntry s e).pending = s.pending := by
  simp only [issueForEntry]
  repeat' split
  all_goals simp

@[simp] theorem resolveIssued_frame (s : State) (i o) :
    (resolveIssued s i o).resetLine = s.resetLine ∧ (resolveIssued s i o).holdLine = s.holdLine ∧
    (resolveIssued s i o).part = s.part ∧ (resolveIssued s i o).tagTable = s.tagTable ∧
    (resolveIssued s i o).refusals = s.refusals ∧ (resolveIssued s i o).arrival = s.arrival ∧
    (resolveIssued s i o).queues = s.queues ∧ (resolveIssued s i o).lines = s.lines ∧
    (resolveIssued s i o).entries = s.entries ∧ (resolveIssued s i o).balances = s.balances ∧
    (resolveIssued s i o).refillCount = s.refillCount ∧ (resolveIssued s i o).periodInForce = s.periodInForce ∧
    (resolveIssued s i o).urgent = s.urgent ∧ (resolveIssued s i o).pointer = s.pointer ∧
    (resolveIssued s i o).tags = s.tags ∧ (resolveIssued s i o).fences = s.fences ∧
    (resolveIssued s i o).fenceOrder = s.fenceOrder ∧ (resolveIssued s i o).faults = s.faults ∧
    (resolveIssued s i o).overflow = s.overflow ∧ (resolveIssued s i o).readout = s.readout ∧
    (resolveIssued s i o).responses = s.responses ∧ (resolveIssued s i o).staged = s.staged ∧
    (resolveIssued s i o).active = s.active ∧ (resolveIssued s i o).epoch = s.epoch ∧
    (resolveIssued s i o).shortFrame = s.shortFrame ∧ (resolveIssued s i o).timeBase = s.timeBase ∧
    (resolveIssued s i o).causes = s.causes ∧ (resolveIssued s i o).counters = s.counters ∧
    (resolveIssued s i o).answer = s.answer ∧ (resolveIssued s i o).issued = s.issued ∧
    (resolveIssued s i o).taken = s.taken ∧ (resolveIssued s i o).mgmt = s.mgmt ∧
    (resolveIssued s i o).pending = s.pending := by
  simp [resolveIssued]

@[simp] theorem releaseTag_frame (s : State) (i) :
    (releaseTag s i).resetLine = s.resetLine ∧ (releaseTag s i).holdLine = s.holdLine ∧
    (releaseTag s i).part = s.part ∧ (releaseTag s i).tagTable = s.tagTable ∧
    (releaseTag s i).refusals = s.refusals ∧ (releaseTag s i).queues = s.queues ∧
    (releaseTag s i).lines = s.lines ∧ (releaseTag s i).entries = s.entries ∧
    (releaseTag s i).balances = s.balances ∧ (releaseTag s i).refillCount = s.refillCount ∧
    (releaseTag s i).periodInForce = s.periodInForce ∧ (releaseTag s i).urgent = s.urgent ∧
    (releaseTag s i).pointer = s.pointer ∧ (releaseTag s i).tags = s.tags ∧
    (releaseTag s i).fenceOrder = s.fenceOrder ∧ (releaseTag s i).faults = s.faults ∧
    (releaseTag s i).overflow = s.overflow ∧ (releaseTag s i).readout = s.readout ∧
    (releaseTag s i).responses = s.responses ∧ (releaseTag s i).staged = s.staged ∧
    (releaseTag s i).active = s.active ∧ (releaseTag s i).epoch = s.epoch ∧
    (releaseTag s i).shortFrame = s.shortFrame ∧ (releaseTag s i).timeBase = s.timeBase ∧
    (releaseTag s i).causes = s.causes ∧ (releaseTag s i).counters = s.counters ∧
    (releaseTag s i).answer = s.answer ∧ (releaseTag s i).issued = s.issued ∧ (releaseTag s i).taken = s.taken ∧
    (releaseTag s i).mgmt = s.mgmt ∧ (releaseTag s i).pending = s.pending := by
  simp only [releaseTag]
  repeat' split
  all_goals simp

@[simp] theorem recordSlotLoss_frame (s : State) (i o) :
    (recordSlotLoss s i o).resetLine = s.resetLine ∧ (recordSlotLoss s i o).holdLine = s.holdLine ∧
    (recordSlotLoss s i o).part = s.part ∧ (recordSlotLoss s i o).tagTable = s.tagTable ∧
    (recordSlotLoss s i o).refusals = s.refusals ∧ (recordSlotLoss s i o).slots = s.slots ∧
    (recordSlotLoss s i o).arrival = s.arrival ∧ (recordSlotLoss s i o).queues = s.queues ∧
    (recordSlotLoss s i o).lines = s.lines ∧ (recordSlotLoss s i o).entries = s.entries ∧
    (recordSlotLoss s i o).balances = s.balances ∧ (recordSlotLoss s i o).refillCount = s.refillCount ∧
    (recordSlotLoss s i o).periodInForce = s.periodInForce ∧ (recordSlotLoss s i o).urgent = s.urgent ∧
    (recordSlotLoss s i o).pointer = s.pointer ∧ (recordSlotLoss s i o).tags = s.tags ∧
    (recordSlotLoss s i o).fenceOrder = s.fenceOrder ∧ (recordSlotLoss s i o).readout = s.readout ∧
    (recordSlotLoss s i o).responses = s.responses ∧ (recordSlotLoss s i o).staged = s.staged ∧
    (recordSlotLoss s i o).active = s.active ∧ (recordSlotLoss s i o).epoch = s.epoch ∧
    (recordSlotLoss s i o).shortFrame = s.shortFrame ∧ (recordSlotLoss s i o).timeBase = s.timeBase ∧
    (recordSlotLoss s i o).counters = s.counters ∧ (recordSlotLoss s i o).answer = s.answer ∧
    (recordSlotLoss s i o).issued = s.issued ∧ (recordSlotLoss s i o).taken = s.taken ∧
    (recordSlotLoss s i o).mgmt = s.mgmt ∧ (recordSlotLoss s i o).pending = s.pending := by
  simp only [recordSlotLoss]
  repeat' split
  all_goals simp

@[simp] theorem resolveSlot_frame (s : State) (i o) :
    (resolveSlot s i o).resetLine = s.resetLine ∧ (resolveSlot s i o).holdLine = s.holdLine ∧
    (resolveSlot s i o).part = s.part ∧ (resolveSlot s i o).tagTable = s.tagTable ∧
    (resolveSlot s i o).refusals = s.refusals ∧ (resolveSlot s i o).queues = s.queues ∧
    (resolveSlot s i o).lines = s.lines ∧ (resolveSlot s i o).entries = s.entries ∧
    (resolveSlot s i o).balances = s.balances ∧ (resolveSlot s i o).refillCount = s.refillCount ∧
    (resolveSlot s i o).periodInForce = s.periodInForce ∧ (resolveSlot s i o).urgent = s.urgent ∧
    (resolveSlot s i o).pointer = s.pointer ∧ (resolveSlot s i o).tags = s.tags ∧
    (resolveSlot s i o).fenceOrder = s.fenceOrder ∧ (resolveSlot s i o).readout = s.readout ∧
    (resolveSlot s i o).responses = s.responses ∧ (resolveSlot s i o).staged = s.staged ∧
    (resolveSlot s i o).active = s.active ∧ (resolveSlot s i o).epoch = s.epoch ∧
    (resolveSlot s i o).shortFrame = s.shortFrame ∧ (resolveSlot s i o).timeBase = s.timeBase ∧
    (resolveSlot s i o).counters = s.counters ∧ (resolveSlot s i o).answer = s.answer ∧
    (resolveSlot s i o).issued = s.issued ∧ (resolveSlot s i o).taken = s.taken ∧
    (resolveSlot s i o).mgmt = s.mgmt ∧ (resolveSlot s i o).pending = s.pending := by
  simp only [resolveSlot]
  repeat' split
  all_goals simp

@[simp] theorem finishWaiting_frame (st) (s : State) (i) :
    (finishWaiting st s i).resetLine = s.resetLine ∧ (finishWaiting st s i).holdLine = s.holdLine ∧
    (finishWaiting st s i).part = s.part ∧ (finishWaiting st s i).tagTable = s.tagTable ∧
    (finishWaiting st s i).refusals = s.refusals ∧ (finishWaiting st s i).arrival = s.arrival ∧
    (finishWaiting st s i).queues = s.queues ∧ (finishWaiting st s i).lines = s.lines ∧
    (finishWaiting st s i).entries = s.entries ∧ (finishWaiting st s i).balances = s.balances ∧
    (finishWaiting st s i).refillCount = s.refillCount ∧ (finishWaiting st s i).periodInForce = s.periodInForce ∧
    (finishWaiting st s i).urgent = s.urgent ∧ (finishWaiting st s i).pointer = s.pointer ∧
    (finishWaiting st s i).tags = s.tags ∧ (finishWaiting st s i).fences = s.fences ∧
    (finishWaiting st s i).fenceOrder = s.fenceOrder ∧ (finishWaiting st s i).faults = s.faults ∧
    (finishWaiting st s i).overflow = s.overflow ∧ (finishWaiting st s i).readout = s.readout ∧
    (finishWaiting st s i).responses = s.responses ∧ (finishWaiting st s i).staged = s.staged ∧
    (finishWaiting st s i).active = s.active ∧ (finishWaiting st s i).epoch = s.epoch ∧
    (finishWaiting st s i).shortFrame = s.shortFrame ∧ (finishWaiting st s i).timeBase = s.timeBase ∧
    (finishWaiting st s i).causes = s.causes ∧ (finishWaiting st s i).counters = s.counters ∧
    (finishWaiting st s i).answer = s.answer ∧ (finishWaiting st s i).issued = s.issued ∧
    (finishWaiting st s i).taken = s.taken ∧ (finishWaiting st s i).mgmt = s.mgmt ∧
    (finishWaiting st s i).pending = s.pending := by
  simp [finishWaiting]

@[simp] theorem answerWaiting_frame (s : State) (e st) :
    (answerWaiting s e st).resetLine = s.resetLine ∧ (answerWaiting s e st).holdLine = s.holdLine ∧
    (answerWaiting s e st).part = s.part ∧ (answerWaiting s e st).tagTable = s.tagTable ∧
    (answerWaiting s e st).refusals = s.refusals ∧ (answerWaiting s e st).arrival = s.arrival ∧
    (answerWaiting s e st).queues = s.queues ∧ (answerWaiting s e st).lines = s.lines ∧
    (answerWaiting s e st).balances = s.balances ∧ (answerWaiting s e st).refillCount = s.refillCount ∧
    (answerWaiting s e st).periodInForce = s.periodInForce ∧ (answerWaiting s e st).urgent = s.urgent ∧
    (answerWaiting s e st).pointer = s.pointer ∧ (answerWaiting s e st).tags = s.tags ∧
    (answerWaiting s e st).fences = s.fences ∧ (answerWaiting s e st).fenceOrder = s.fenceOrder ∧
    (answerWaiting s e st).faults = s.faults ∧ (answerWaiting s e st).overflow = s.overflow ∧
    (answerWaiting s e st).readout = s.readout ∧ (answerWaiting s e st).responses = s.responses ∧
    (answerWaiting s e st).staged = s.staged ∧ (answerWaiting s e st).active = s.active ∧
    (answerWaiting s e st).epoch = s.epoch ∧ (answerWaiting s e st).shortFrame = s.shortFrame ∧
    (answerWaiting s e st).timeBase = s.timeBase ∧ (answerWaiting s e st).causes = s.causes ∧
    (answerWaiting s e st).counters = s.counters ∧ (answerWaiting s e st).answer = s.answer ∧
    (answerWaiting s e st).issued = s.issued ∧ (answerWaiting s e st).taken = s.taken ∧
    (answerWaiting s e st).mgmt = s.mgmt ∧ (answerWaiting s e st).pending = s.pending := by
  refine ⟨foldl_eq State.resetLine (fun t i => by simp) _ s, foldl_eq State.holdLine (fun t i => by simp) _ s, foldl_eq State.part (fun t i => by simp) _ s, foldl_eq State.tagTable (fun t i => by simp) _ s, foldl_eq State.refusals (fun t i => by simp) _ s, foldl_eq State.arrival (fun t i => by simp) _ s, foldl_eq State.queues (fun t i => by simp) _ s, foldl_eq State.lines (fun t i => by simp) _ s, foldl_eq State.balances (fun t i => by simp) _ s, foldl_eq State.refillCount (fun t i => by simp) _ s, foldl_eq State.periodInForce (fun t i => by simp) _ s, foldl_eq State.urgent (fun t i => by simp) _ s, foldl_eq State.pointer (fun t i => by simp) _ s, foldl_eq State.tags (fun t i => by simp) _ s, foldl_eq State.fences (fun t i => by simp) _ s, foldl_eq State.fenceOrder (fun t i => by simp) _ s, foldl_eq State.faults (fun t i => by simp) _ s, foldl_eq State.overflow (fun t i => by simp) _ s, foldl_eq State.readout (fun t i => by simp) _ s, foldl_eq State.responses (fun t i => by simp) _ s, foldl_eq State.staged (fun t i => by simp) _ s, foldl_eq State.active (fun t i => by simp) _ s, foldl_eq State.epoch (fun t i => by simp) _ s, foldl_eq State.shortFrame (fun t i => by simp) _ s, foldl_eq State.timeBase (fun t i => by simp) _ s, foldl_eq State.causes (fun t i => by simp) _ s, foldl_eq State.counters (fun t i => by simp) _ s, foldl_eq State.answer (fun t i => by simp) _ s, foldl_eq State.issued (fun t i => by simp) _ s, foldl_eq State.taken (fun t i => by simp) _ s, foldl_eq State.mgmt (fun t i => by simp) _ s, foldl_eq State.pending (fun t i => by simp) _ s⟩

@[simp] theorem recordEntryLoss_frame (s : State) (e k) :
    (recordEntryLoss s e k).resetLine = s.resetLine ∧ (recordEntryLoss s e k).holdLine = s.holdLine ∧
    (recordEntryLoss s e k).part = s.part ∧ (recordEntryLoss s e k).tagTable = s.tagTable ∧
    (recordEntryLoss s e k).refusals = s.refusals ∧ (recordEntryLoss s e k).slots = s.slots ∧
    (recordEntryLoss s e k).arrival = s.arrival ∧ (recordEntryLoss s e k).queues = s.queues ∧
    (recordEntryLoss s e k).lines = s.lines ∧ (recordEntryLoss s e k).entries = s.entries ∧
    (recordEntryLoss s e k).balances = s.balances ∧ (recordEntryLoss s e k).refillCount = s.refillCount ∧
    (recordEntryLoss s e k).periodInForce = s.periodInForce ∧ (recordEntryLoss s e k).urgent = s.urgent ∧
    (recordEntryLoss s e k).pointer = s.pointer ∧ (recordEntryLoss s e k).tags = s.tags ∧
    (recordEntryLoss s e k).fenceOrder = s.fenceOrder ∧ (recordEntryLoss s e k).readout = s.readout ∧
    (recordEntryLoss s e k).responses = s.responses ∧ (recordEntryLoss s e k).staged = s.staged ∧
    (recordEntryLoss s e k).active = s.active ∧ (recordEntryLoss s e k).epoch = s.epoch ∧
    (recordEntryLoss s e k).shortFrame = s.shortFrame ∧ (recordEntryLoss s e k).timeBase = s.timeBase ∧
    (recordEntryLoss s e k).counters = s.counters ∧ (recordEntryLoss s e k).answer = s.answer ∧
    (recordEntryLoss s e k).issued = s.issued ∧ (recordEntryLoss s e k).taken = s.taken ∧
    (recordEntryLoss s e k).mgmt = s.mgmt ∧ (recordEntryLoss s e k).pending = s.pending := by
  simp [recordEntryLoss]

@[simp] theorem resolveEntry_frame (s : State) (e o) :
    (resolveEntry s e o).resetLine = s.resetLine ∧ (resolveEntry s e o).holdLine = s.holdLine ∧
    (resolveEntry s e o).part = s.part ∧ (resolveEntry s e o).tagTable = s.tagTable ∧
    (resolveEntry s e o).refusals = s.refusals ∧ (resolveEntry s e o).arrival = s.arrival ∧
    (resolveEntry s e o).queues = s.queues ∧ (resolveEntry s e o).balances = s.balances ∧
    (resolveEntry s e o).refillCount = s.refillCount ∧ (resolveEntry s e o).periodInForce = s.periodInForce ∧
    (resolveEntry s e o).urgent = s.urgent ∧ (resolveEntry s e o).pointer = s.pointer ∧
    (resolveEntry s e o).tags = s.tags ∧ (resolveEntry s e o).fenceOrder = s.fenceOrder ∧
    (resolveEntry s e o).readout = s.readout ∧ (resolveEntry s e o).responses = s.responses ∧
    (resolveEntry s e o).staged = s.staged ∧ (resolveEntry s e o).active = s.active ∧
    (resolveEntry s e o).epoch = s.epoch ∧ (resolveEntry s e o).shortFrame = s.shortFrame ∧
    (resolveEntry s e o).timeBase = s.timeBase ∧ (resolveEntry s e o).counters = s.counters ∧
    (resolveEntry s e o).answer = s.answer ∧ (resolveEntry s e o).issued = s.issued ∧
    (resolveEntry s e o).taken = s.taken ∧ (resolveEntry s e o).mgmt = s.mgmt ∧
    (resolveEntry s e o).pending = s.pending := by
  cases o <;> simp [resolveEntry, lossOf]

@[simp] theorem resolveSource_frame (s : State) (src o) :
    (resolveSource s src o).resetLine = s.resetLine ∧ (resolveSource s src o).holdLine = s.holdLine ∧
    (resolveSource s src o).part = s.part ∧ (resolveSource s src o).tagTable = s.tagTable ∧
    (resolveSource s src o).refusals = s.refusals ∧ (resolveSource s src o).queues = s.queues ∧
    (resolveSource s src o).balances = s.balances ∧ (resolveSource s src o).refillCount = s.refillCount ∧
    (resolveSource s src o).periodInForce = s.periodInForce ∧ (resolveSource s src o).urgent = s.urgent ∧
    (resolveSource s src o).pointer = s.pointer ∧ (resolveSource s src o).tags = s.tags ∧
    (resolveSource s src o).fenceOrder = s.fenceOrder ∧ (resolveSource s src o).readout = s.readout ∧
    (resolveSource s src o).responses = s.responses ∧ (resolveSource s src o).staged = s.staged ∧
    (resolveSource s src o).active = s.active ∧ (resolveSource s src o).epoch = s.epoch ∧
    (resolveSource s src o).shortFrame = s.shortFrame ∧ (resolveSource s src o).timeBase = s.timeBase ∧
    (resolveSource s src o).counters = s.counters ∧ (resolveSource s src o).answer = s.answer ∧
    (resolveSource s src o).issued = s.issued ∧ (resolveSource s src o).taken = s.taken ∧
    (resolveSource s src o).mgmt = s.mgmt ∧ (resolveSource s src o).pending = s.pending := by
  simp only [resolveSource]
  repeat' split
  all_goals simp

@[simp] theorem timeOut_frame (s : State) (t op) :
    (timeOut s t op).resetLine = s.resetLine ∧ (timeOut s t op).holdLine = s.holdLine ∧
    (timeOut s t op).part = s.part ∧ (timeOut s t op).tagTable = s.tagTable ∧
    (timeOut s t op).refusals = s.refusals ∧ (timeOut s t op).queues = s.queues ∧
    (timeOut s t op).balances = s.balances ∧ (timeOut s t op).refillCount = s.refillCount ∧
    (timeOut s t op).periodInForce = s.periodInForce ∧ (timeOut s t op).urgent = s.urgent ∧
    (timeOut s t op).pointer = s.pointer ∧ (timeOut s t op).fenceOrder = s.fenceOrder ∧
    (timeOut s t op).readout = s.readout ∧ (timeOut s t op).responses = s.responses ∧
    (timeOut s t op).staged = s.staged ∧ (timeOut s t op).active = s.active ∧ (timeOut s t op).epoch = s.epoch ∧
    (timeOut s t op).shortFrame = s.shortFrame ∧ (timeOut s t op).timeBase = s.timeBase ∧
    (timeOut s t op).answer = s.answer ∧ (timeOut s t op).issued = s.issued ∧ (timeOut s t op).taken = s.taken ∧
    (timeOut s t op).mgmt = s.mgmt ∧ (timeOut s t op).pending = s.pending := by
  simp [timeOut]

@[simp] theorem judgeTimeout_frame (s : State) (t) :
    (judgeTimeout s t).resetLine = s.resetLine ∧ (judgeTimeout s t).holdLine = s.holdLine ∧
    (judgeTimeout s t).part = s.part ∧ (judgeTimeout s t).tagTable = s.tagTable ∧
    (judgeTimeout s t).refusals = s.refusals ∧ (judgeTimeout s t).queues = s.queues ∧
    (judgeTimeout s t).balances = s.balances ∧ (judgeTimeout s t).refillCount = s.refillCount ∧
    (judgeTimeout s t).periodInForce = s.periodInForce ∧ (judgeTimeout s t).urgent = s.urgent ∧
    (judgeTimeout s t).pointer = s.pointer ∧ (judgeTimeout s t).fenceOrder = s.fenceOrder ∧
    (judgeTimeout s t).readout = s.readout ∧ (judgeTimeout s t).responses = s.responses ∧
    (judgeTimeout s t).staged = s.staged ∧ (judgeTimeout s t).active = s.active ∧
    (judgeTimeout s t).epoch = s.epoch ∧ (judgeTimeout s t).shortFrame = s.shortFrame ∧
    (judgeTimeout s t).timeBase = s.timeBase ∧ (judgeTimeout s t).answer = s.answer ∧
    (judgeTimeout s t).issued = s.issued ∧ (judgeTimeout s t).taken = s.taken ∧ (judgeTimeout s t).mgmt = s.mgmt ∧
    (judgeTimeout s t).pending = s.pending := by
  simp only [judgeTimeout]
  repeat' split
  all_goals simp

@[simp] theorem judgeAllTimeouts_frame (s : State) :
    (judgeAllTimeouts s).resetLine = s.resetLine ∧ (judgeAllTimeouts s).holdLine = s.holdLine ∧
    (judgeAllTimeouts s).part = s.part ∧ (judgeAllTimeouts s).tagTable = s.tagTable ∧
    (judgeAllTimeouts s).refusals = s.refusals ∧ (judgeAllTimeouts s).queues = s.queues ∧
    (judgeAllTimeouts s).balances = s.balances ∧ (judgeAllTimeouts s).refillCount = s.refillCount ∧
    (judgeAllTimeouts s).periodInForce = s.periodInForce ∧ (judgeAllTimeouts s).urgent = s.urgent ∧
    (judgeAllTimeouts s).pointer = s.pointer ∧ (judgeAllTimeouts s).fenceOrder = s.fenceOrder ∧
    (judgeAllTimeouts s).readout = s.readout ∧ (judgeAllTimeouts s).responses = s.responses ∧
    (judgeAllTimeouts s).staged = s.staged ∧ (judgeAllTimeouts s).active = s.active ∧
    (judgeAllTimeouts s).epoch = s.epoch ∧ (judgeAllTimeouts s).shortFrame = s.shortFrame ∧
    (judgeAllTimeouts s).timeBase = s.timeBase ∧ (judgeAllTimeouts s).answer = s.answer ∧
    (judgeAllTimeouts s).issued = s.issued ∧ (judgeAllTimeouts s).taken = s.taken ∧
    (judgeAllTimeouts s).mgmt = s.mgmt ∧ (judgeAllTimeouts s).pending = s.pending :=
  ⟨forEach_eq State.resetLine (fun t i => by simp) s, forEach_eq State.holdLine (fun t i => by simp) s, forEach_eq State.part (fun t i => by simp) s, forEach_eq State.tagTable (fun t i => by simp) s, forEach_eq State.refusals (fun t i => by simp) s, forEach_eq State.queues (fun t i => by simp) s, forEach_eq State.balances (fun t i => by simp) s, forEach_eq State.refillCount (fun t i => by simp) s, forEach_eq State.periodInForce (fun t i => by simp) s, forEach_eq State.urgent (fun t i => by simp) s, forEach_eq State.pointer (fun t i => by simp) s, forEach_eq State.fenceOrder (fun t i => by simp) s, forEach_eq State.readout (fun t i => by simp) s, forEach_eq State.responses (fun t i => by simp) s, forEach_eq State.staged (fun t i => by simp) s, forEach_eq State.active (fun t i => by simp) s, forEach_eq State.epoch (fun t i => by simp) s, forEach_eq State.shortFrame (fun t i => by simp) s, forEach_eq State.timeBase (fun t i => by simp) s, forEach_eq State.answer (fun t i => by simp) s, forEach_eq State.issued (fun t i => by simp) s, forEach_eq State.taken (fun t i => by simp) s, forEach_eq State.mgmt (fun t i => by simp) s, forEach_eq State.pending (fun t i => by simp) s⟩

@[simp] theorem judgeUrgency_frame (s : State) (k) :
    (judgeUrgency s k).resetLine = s.resetLine ∧ (judgeUrgency s k).holdLine = s.holdLine ∧
    (judgeUrgency s k).part = s.part ∧ (judgeUrgency s k).tagTable = s.tagTable ∧
    (judgeUrgency s k).refusals = s.refusals ∧ (judgeUrgency s k).slots = s.slots ∧
    (judgeUrgency s k).arrival = s.arrival ∧ (judgeUrgency s k).queues = s.queues ∧
    (judgeUrgency s k).lines = s.lines ∧ (judgeUrgency s k).entries = s.entries ∧
    (judgeUrgency s k).balances = s.balances ∧ (judgeUrgency s k).refillCount = s.refillCount ∧
    (judgeUrgency s k).periodInForce = s.periodInForce ∧ (judgeUrgency s k).pointer = s.pointer ∧
    (judgeUrgency s k).tags = s.tags ∧ (judgeUrgency s k).fences = s.fences ∧
    (judgeUrgency s k).fenceOrder = s.fenceOrder ∧ (judgeUrgency s k).faults = s.faults ∧
    (judgeUrgency s k).overflow = s.overflow ∧ (judgeUrgency s k).readout = s.readout ∧
    (judgeUrgency s k).responses = s.responses ∧ (judgeUrgency s k).staged = s.staged ∧
    (judgeUrgency s k).active = s.active ∧ (judgeUrgency s k).epoch = s.epoch ∧
    (judgeUrgency s k).shortFrame = s.shortFrame ∧ (judgeUrgency s k).timeBase = s.timeBase ∧
    (judgeUrgency s k).causes = s.causes ∧ (judgeUrgency s k).answer = s.answer ∧
    (judgeUrgency s k).issued = s.issued ∧ (judgeUrgency s k).taken = s.taken ∧ (judgeUrgency s k).mgmt = s.mgmt ∧
    (judgeUrgency s k).pending = s.pending := by
  simp only [judgeUrgency]
  repeat' split
  all_goals simp

@[simp] theorem judgeAllUrgency_frame (s : State) :
    (judgeAllUrgency s).resetLine = s.resetLine ∧ (judgeAllUrgency s).holdLine = s.holdLine ∧
    (judgeAllUrgency s).part = s.part ∧ (judgeAllUrgency s).tagTable = s.tagTable ∧
    (judgeAllUrgency s).refusals = s.refusals ∧ (judgeAllUrgency s).slots = s.slots ∧
    (judgeAllUrgency s).arrival = s.arrival ∧ (judgeAllUrgency s).queues = s.queues ∧
    (judgeAllUrgency s).lines = s.lines ∧ (judgeAllUrgency s).entries = s.entries ∧
    (judgeAllUrgency s).balances = s.balances ∧ (judgeAllUrgency s).refillCount = s.refillCount ∧
    (judgeAllUrgency s).periodInForce = s.periodInForce ∧ (judgeAllUrgency s).pointer = s.pointer ∧
    (judgeAllUrgency s).tags = s.tags ∧ (judgeAllUrgency s).fences = s.fences ∧
    (judgeAllUrgency s).fenceOrder = s.fenceOrder ∧ (judgeAllUrgency s).faults = s.faults ∧
    (judgeAllUrgency s).overflow = s.overflow ∧ (judgeAllUrgency s).readout = s.readout ∧
    (judgeAllUrgency s).responses = s.responses ∧ (judgeAllUrgency s).staged = s.staged ∧
    (judgeAllUrgency s).active = s.active ∧ (judgeAllUrgency s).epoch = s.epoch ∧
    (judgeAllUrgency s).shortFrame = s.shortFrame ∧ (judgeAllUrgency s).timeBase = s.timeBase ∧
    (judgeAllUrgency s).causes = s.causes ∧ (judgeAllUrgency s).answer = s.answer ∧
    (judgeAllUrgency s).issued = s.issued ∧ (judgeAllUrgency s).taken = s.taken ∧
    (judgeAllUrgency s).mgmt = s.mgmt ∧ (judgeAllUrgency s).pending = s.pending :=
  ⟨forEach_eq State.resetLine (fun t i => by simp) s, forEach_eq State.holdLine (fun t i => by simp) s, forEach_eq State.part (fun t i => by simp) s, forEach_eq State.tagTable (fun t i => by simp) s, forEach_eq State.refusals (fun t i => by simp) s, forEach_eq State.slots (fun t i => by simp) s, forEach_eq State.arrival (fun t i => by simp) s, forEach_eq State.queues (fun t i => by simp) s, forEach_eq State.lines (fun t i => by simp) s, forEach_eq State.entries (fun t i => by simp) s, forEach_eq State.balances (fun t i => by simp) s, forEach_eq State.refillCount (fun t i => by simp) s, forEach_eq State.periodInForce (fun t i => by simp) s, forEach_eq State.pointer (fun t i => by simp) s, forEach_eq State.tags (fun t i => by simp) s, forEach_eq State.fences (fun t i => by simp) s, forEach_eq State.fenceOrder (fun t i => by simp) s, forEach_eq State.faults (fun t i => by simp) s, forEach_eq State.overflow (fun t i => by simp) s, forEach_eq State.readout (fun t i => by simp) s, forEach_eq State.responses (fun t i => by simp) s, forEach_eq State.staged (fun t i => by simp) s, forEach_eq State.active (fun t i => by simp) s, forEach_eq State.epoch (fun t i => by simp) s, forEach_eq State.shortFrame (fun t i => by simp) s, forEach_eq State.timeBase (fun t i => by simp) s, forEach_eq State.causes (fun t i => by simp) s, forEach_eq State.answer (fun t i => by simp) s, forEach_eq State.issued (fun t i => by simp) s, forEach_eq State.taken (fun t i => by simp) s, forEach_eq State.mgmt (fun t i => by simp) s, forEach_eq State.pending (fun t i => by simp) s⟩

@[simp] theorem expireRefill_frame (s : State) :
    (expireRefill s).resetLine = s.resetLine ∧ (expireRefill s).holdLine = s.holdLine ∧
    (expireRefill s).part = s.part ∧ (expireRefill s).tagTable = s.tagTable ∧
    (expireRefill s).refusals = s.refusals ∧ (expireRefill s).slots = s.slots ∧
    (expireRefill s).arrival = s.arrival ∧ (expireRefill s).queues = s.queues ∧ (expireRefill s).lines = s.lines ∧
    (expireRefill s).entries = s.entries ∧ (expireRefill s).periodInForce = s.periodInForce ∧
    (expireRefill s).urgent = s.urgent ∧ (expireRefill s).pointer = s.pointer ∧ (expireRefill s).tags = s.tags ∧
    (expireRefill s).fences = s.fences ∧ (expireRefill s).fenceOrder = s.fenceOrder ∧
    (expireRefill s).faults = s.faults ∧ (expireRefill s).overflow = s.overflow ∧
    (expireRefill s).readout = s.readout ∧ (expireRefill s).responses = s.responses ∧
    (expireRefill s).staged = s.staged ∧ (expireRefill s).active = s.active ∧ (expireRefill s).epoch = s.epoch ∧
    (expireRefill s).shortFrame = s.shortFrame ∧ (expireRefill s).timeBase = s.timeBase ∧
    (expireRefill s).causes = s.causes ∧ (expireRefill s).counters = s.counters ∧
    (expireRefill s).answer = s.answer ∧ (expireRefill s).issued = s.issued ∧ (expireRefill s).taken = s.taken ∧
    (expireRefill s).mgmt = s.mgmt ∧ (expireRefill s).pending = s.pending := by
  simp [expireRefill]

@[simp] theorem judgeRefill_frame (s : State) :
    (judgeRefill s).resetLine = s.resetLine ∧ (judgeRefill s).holdLine = s.holdLine ∧
    (judgeRefill s).part = s.part ∧ (judgeRefill s).tagTable = s.tagTable ∧
    (judgeRefill s).refusals = s.refusals ∧ (judgeRefill s).slots = s.slots ∧
    (judgeRefill s).arrival = s.arrival ∧ (judgeRefill s).queues = s.queues ∧ (judgeRefill s).lines = s.lines ∧
    (judgeRefill s).entries = s.entries ∧ (judgeRefill s).periodInForce = s.periodInForce ∧
    (judgeRefill s).urgent = s.urgent ∧ (judgeRefill s).pointer = s.pointer ∧ (judgeRefill s).tags = s.tags ∧
    (judgeRefill s).fences = s.fences ∧ (judgeRefill s).fenceOrder = s.fenceOrder ∧
    (judgeRefill s).faults = s.faults ∧ (judgeRefill s).overflow = s.overflow ∧
    (judgeRefill s).readout = s.readout ∧ (judgeRefill s).responses = s.responses ∧
    (judgeRefill s).staged = s.staged ∧ (judgeRefill s).active = s.active ∧ (judgeRefill s).epoch = s.epoch ∧
    (judgeRefill s).shortFrame = s.shortFrame ∧ (judgeRefill s).timeBase = s.timeBase ∧
    (judgeRefill s).causes = s.causes ∧ (judgeRefill s).counters = s.counters ∧
    (judgeRefill s).answer = s.answer ∧ (judgeRefill s).issued = s.issued ∧ (judgeRefill s).taken = s.taken ∧
    (judgeRefill s).mgmt = s.mgmt ∧ (judgeRefill s).pending = s.pending := by
  simp only [judgeRefill]
  repeat' split
  all_goals simp

@[simp] theorem charge_frame (s : State) (k n) :
    (charge s k n).resetLine = s.resetLine ∧ (charge s k n).holdLine = s.holdLine ∧ (charge s k n).part = s.part ∧
    (charge s k n).tagTable = s.tagTable ∧ (charge s k n).refusals = s.refusals ∧ (charge s k n).slots = s.slots ∧
    (charge s k n).arrival = s.arrival ∧ (charge s k n).queues = s.queues ∧ (charge s k n).lines = s.lines ∧
    (charge s k n).entries = s.entries ∧ (charge s k n).refillCount = s.refillCount ∧
    (charge s k n).periodInForce = s.periodInForce ∧ (charge s k n).urgent = s.urgent ∧
    (charge s k n).pointer = s.pointer ∧ (charge s k n).tags = s.tags ∧ (charge s k n).fences = s.fences ∧
    (charge s k n).fenceOrder = s.fenceOrder ∧ (charge s k n).faults = s.faults ∧
    (charge s k n).overflow = s.overflow ∧ (charge s k n).readout = s.readout ∧
    (charge s k n).responses = s.responses ∧ (charge s k n).staged = s.staged ∧ (charge s k n).active = s.active ∧
    (charge s k n).epoch = s.epoch ∧ (charge s k n).shortFrame = s.shortFrame ∧
    (charge s k n).timeBase = s.timeBase ∧ (charge s k n).causes = s.causes ∧ (charge s k n).answer = s.answer ∧
    (charge s k n).issued = s.issued ∧ (charge s k n).taken = s.taken ∧ (charge s k n).mgmt = s.mgmt ∧
    (charge s k n).pending = s.pending := by
  simp [charge]

@[simp] theorem completeRestart_frame (s : State) :
    (completeRestart s).resetLine = s.resetLine ∧ (completeRestart s).holdLine = s.holdLine ∧
    (completeRestart s).tagTable = s.tagTable ∧ (completeRestart s).refusals = s.refusals ∧
    (completeRestart s).slots = s.slots ∧ (completeRestart s).arrival = s.arrival ∧
    (completeRestart s).queues = s.queues ∧ (completeRestart s).lines = s.lines ∧
    (completeRestart s).entries = s.entries ∧ (completeRestart s).refillCount = s.refillCount ∧
    (completeRestart s).periodInForce = s.periodInForce ∧ (completeRestart s).urgent = s.urgent ∧
    (completeRestart s).tags = s.tags ∧ (completeRestart s).fences = s.fences ∧
    (completeRestart s).fenceOrder = s.fenceOrder ∧ (completeRestart s).faults = s.faults ∧
    (completeRestart s).overflow = s.overflow ∧ (completeRestart s).readout = s.readout ∧
    (completeRestart s).responses = s.responses ∧ (completeRestart s).staged = s.staged ∧
    (completeRestart s).active = s.active ∧ (completeRestart s).epoch = s.epoch ∧
    (completeRestart s).shortFrame = s.shortFrame ∧ (completeRestart s).timeBase = s.timeBase ∧
    (completeRestart s).counters = s.counters ∧ (completeRestart s).answer = s.answer ∧
    (completeRestart s).issued = s.issued ∧ (completeRestart s).taken = s.taken ∧
    (completeRestart s).mgmt = s.mgmt ∧ (completeRestart s).pending = s.pending := by
  simp [completeRestart]

@[simp] theorem judgeEmpty_frame (s : State) :
    (judgeEmpty s).resetLine = s.resetLine ∧ (judgeEmpty s).holdLine = s.holdLine ∧
    (judgeEmpty s).tagTable = s.tagTable ∧ (judgeEmpty s).refusals = s.refusals ∧ (judgeEmpty s).slots = s.slots ∧
    (judgeEmpty s).arrival = s.arrival ∧ (judgeEmpty s).queues = s.queues ∧ (judgeEmpty s).lines = s.lines ∧
    (judgeEmpty s).entries = s.entries ∧ (judgeEmpty s).refillCount = s.refillCount ∧
    (judgeEmpty s).periodInForce = s.periodInForce ∧ (judgeEmpty s).urgent = s.urgent ∧
    (judgeEmpty s).tags = s.tags ∧ (judgeEmpty s).fences = s.fences ∧ (judgeEmpty s).fenceOrder = s.fenceOrder ∧
    (judgeEmpty s).faults = s.faults ∧ (judgeEmpty s).overflow = s.overflow ∧ (judgeEmpty s).readout = s.readout ∧
    (judgeEmpty s).responses = s.responses ∧ (judgeEmpty s).staged = s.staged ∧ (judgeEmpty s).active = s.active ∧
    (judgeEmpty s).epoch = s.epoch ∧ (judgeEmpty s).shortFrame = s.shortFrame ∧
    (judgeEmpty s).timeBase = s.timeBase ∧ (judgeEmpty s).counters = s.counters ∧
    (judgeEmpty s).answer = s.answer ∧ (judgeEmpty s).issued = s.issued ∧ (judgeEmpty s).taken = s.taken ∧
    (judgeEmpty s).mgmt = s.mgmt ∧ (judgeEmpty s).pending = s.pending := by
  simp only [judgeEmpty]
  repeat' split
  all_goals simp

@[simp] theorem conclude_frame (b s : State) :
    (conclude b s).resetLine = s.resetLine ∧ (conclude b s).holdLine = s.holdLine ∧
    (conclude b s).tagTable = s.tagTable ∧ (conclude b s).refusals = s.refusals ∧ (conclude b s).slots = s.slots ∧
    (conclude b s).arrival = s.arrival ∧ (conclude b s).queues = s.queues ∧ (conclude b s).lines = s.lines ∧
    (conclude b s).entries = s.entries ∧ (conclude b s).refillCount = s.refillCount ∧
    (conclude b s).periodInForce = s.periodInForce ∧ (conclude b s).urgent = s.urgent ∧
    (conclude b s).tags = s.tags ∧ (conclude b s).fences = s.fences ∧ (conclude b s).fenceOrder = s.fenceOrder ∧
    (conclude b s).faults = s.faults ∧ (conclude b s).overflow = s.overflow ∧ (conclude b s).readout = s.readout ∧
    (conclude b s).staged = s.staged ∧ (conclude b s).active = s.active ∧ (conclude b s).epoch = s.epoch ∧
    (conclude b s).shortFrame = s.shortFrame ∧ (conclude b s).timeBase = s.timeBase ∧
    (conclude b s).counters = s.counters ∧ (conclude b s).answer = s.answer ∧ (conclude b s).issued = s.issued ∧
    (conclude b s).taken = s.taken ∧ (conclude b s).mgmt = s.mgmt ∧ (conclude b s).pending = s.pending := by
  simp [conclude]

@[simp] theorem answerMgmt_frame (s : State) (st v) :
    (answerMgmt s st v).resetLine = s.resetLine ∧ (answerMgmt s st v).holdLine = s.holdLine ∧
    (answerMgmt s st v).part = s.part ∧ (answerMgmt s st v).tagTable = s.tagTable ∧
    (answerMgmt s st v).refusals = s.refusals ∧ (answerMgmt s st v).slots = s.slots ∧
    (answerMgmt s st v).arrival = s.arrival ∧ (answerMgmt s st v).queues = s.queues ∧
    (answerMgmt s st v).lines = s.lines ∧ (answerMgmt s st v).entries = s.entries ∧
    (answerMgmt s st v).balances = s.balances ∧ (answerMgmt s st v).refillCount = s.refillCount ∧
    (answerMgmt s st v).periodInForce = s.periodInForce ∧ (answerMgmt s st v).urgent = s.urgent ∧
    (answerMgmt s st v).pointer = s.pointer ∧ (answerMgmt s st v).tags = s.tags ∧
    (answerMgmt s st v).fences = s.fences ∧ (answerMgmt s st v).fenceOrder = s.fenceOrder ∧
    (answerMgmt s st v).faults = s.faults ∧ (answerMgmt s st v).overflow = s.overflow ∧
    (answerMgmt s st v).readout = s.readout ∧ (answerMgmt s st v).responses = s.responses ∧
    (answerMgmt s st v).staged = s.staged ∧ (answerMgmt s st v).active = s.active ∧
    (answerMgmt s st v).epoch = s.epoch ∧ (answerMgmt s st v).shortFrame = s.shortFrame ∧
    (answerMgmt s st v).timeBase = s.timeBase ∧ (answerMgmt s st v).causes = s.causes ∧
    (answerMgmt s st v).counters = s.counters ∧ (answerMgmt s st v).answer = s.answer ∧
    (answerMgmt s st v).issued = s.issued ∧ (answerMgmt s st v).taken = s.taken ∧
    (answerMgmt s st v).pending = s.pending := by
  simp [answerMgmt]

/-! ## Request port -/

@[simp] theorem deferUnclassed_frame (s : State) :
    (deferUnclassed s).resetLine = s.resetLine ∧ (deferUnclassed s).holdLine = s.holdLine ∧
    (deferUnclassed s).part = s.part ∧ (deferUnclassed s).tagTable = s.tagTable ∧
    (deferUnclassed s).refusals = s.refusals ∧ (deferUnclassed s).slots = s.slots ∧
    (deferUnclassed s).arrival = s.arrival ∧ (deferUnclassed s).queues = s.queues ∧
    (deferUnclassed s).lines = s.lines ∧ (deferUnclassed s).entries = s.entries ∧
    (deferUnclassed s).balances = s.balances ∧ (deferUnclassed s).refillCount = s.refillCount ∧
    (deferUnclassed s).periodInForce = s.periodInForce ∧ (deferUnclassed s).urgent = s.urgent ∧
    (deferUnclassed s).pointer = s.pointer ∧ (deferUnclassed s).tags = s.tags ∧
    (deferUnclassed s).fences = s.fences ∧ (deferUnclassed s).fenceOrder = s.fenceOrder ∧
    (deferUnclassed s).faults = s.faults ∧ (deferUnclassed s).overflow = s.overflow ∧
    (deferUnclassed s).readout = s.readout ∧ (deferUnclassed s).responses = s.responses ∧
    (deferUnclassed s).staged = s.staged ∧ (deferUnclassed s).active = s.active ∧
    (deferUnclassed s).epoch = s.epoch ∧ (deferUnclassed s).shortFrame = s.shortFrame ∧
    (deferUnclassed s).timeBase = s.timeBase ∧ (deferUnclassed s).causes = s.causes ∧
    (deferUnclassed s).issued = s.issued ∧ (deferUnclassed s).taken = s.taken ∧ (deferUnclassed s).mgmt = s.mgmt ∧
    (deferUnclassed s).pending = s.pending := by
  simp [deferUnclassed]

@[simp] theorem deferClass_frame (s : State) (k) :
    (deferClass s k).resetLine = s.resetLine ∧ (deferClass s k).holdLine = s.holdLine ∧
    (deferClass s k).part = s.part ∧ (deferClass s k).tagTable = s.tagTable ∧
    (deferClass s k).refusals = s.refusals ∧ (deferClass s k).slots = s.slots ∧
    (deferClass s k).arrival = s.arrival ∧ (deferClass s k).queues = s.queues ∧ (deferClass s k).lines = s.lines ∧
    (deferClass s k).entries = s.entries ∧ (deferClass s k).balances = s.balances ∧
    (deferClass s k).refillCount = s.refillCount ∧ (deferClass s k).periodInForce = s.periodInForce ∧
    (deferClass s k).urgent = s.urgent ∧ (deferClass s k).pointer = s.pointer ∧ (deferClass s k).tags = s.tags ∧
    (deferClass s k).fences = s.fences ∧ (deferClass s k).fenceOrder = s.fenceOrder ∧
    (deferClass s k).faults = s.faults ∧ (deferClass s k).overflow = s.overflow ∧
    (deferClass s k).readout = s.readout ∧ (deferClass s k).responses = s.responses ∧
    (deferClass s k).staged = s.staged ∧ (deferClass s k).active = s.active ∧ (deferClass s k).epoch = s.epoch ∧
    (deferClass s k).shortFrame = s.shortFrame ∧ (deferClass s k).timeBase = s.timeBase ∧
    (deferClass s k).causes = s.causes ∧ (deferClass s k).issued = s.issued ∧ (deferClass s k).taken = s.taken ∧
    (deferClass s k).mgmt = s.mgmt ∧ (deferClass s k).pending = s.pending := by
  simp [deferClass]

@[simp] theorem refuse_frame (s : State) (r st) :
    (refuse s r st).resetLine = s.resetLine ∧ (refuse s r st).holdLine = s.holdLine ∧
    (refuse s r st).part = s.part ∧ (refuse s r st).tagTable = s.tagTable ∧ (refuse s r st).slots = s.slots ∧
    (refuse s r st).arrival = s.arrival ∧ (refuse s r st).queues = s.queues ∧ (refuse s r st).lines = s.lines ∧
    (refuse s r st).entries = s.entries ∧ (refuse s r st).balances = s.balances ∧
    (refuse s r st).refillCount = s.refillCount ∧ (refuse s r st).periodInForce = s.periodInForce ∧
    (refuse s r st).urgent = s.urgent ∧ (refuse s r st).pointer = s.pointer ∧ (refuse s r st).tags = s.tags ∧
    (refuse s r st).fences = s.fences ∧ (refuse s r st).fenceOrder = s.fenceOrder ∧
    (refuse s r st).faults = s.faults ∧ (refuse s r st).overflow = s.overflow ∧
    (refuse s r st).readout = s.readout ∧ (refuse s r st).staged = s.staged ∧ (refuse s r st).active = s.active ∧
    (refuse s r st).epoch = s.epoch ∧ (refuse s r st).shortFrame = s.shortFrame ∧
    (refuse s r st).timeBase = s.timeBase ∧ (refuse s r st).causes = s.causes ∧
    (refuse s r st).issued = s.issued ∧ (refuse s r st).taken = s.taken ∧ (refuse s r st).mgmt = s.mgmt ∧
    (refuse s r st).pending = s.pending := by
  simp only [refuse]
  repeat' split
  all_goals simp

@[simp] theorem markTag_frame (s : State) (i t) :
    (markTag s i t).resetLine = s.resetLine ∧ (markTag s i t).holdLine = s.holdLine ∧
    (markTag s i t).part = s.part ∧ (markTag s i t).refusals = s.refusals ∧ (markTag s i t).slots = s.slots ∧
    (markTag s i t).arrival = s.arrival ∧ (markTag s i t).queues = s.queues ∧ (markTag s i t).lines = s.lines ∧
    (markTag s i t).entries = s.entries ∧ (markTag s i t).balances = s.balances ∧
    (markTag s i t).refillCount = s.refillCount ∧ (markTag s i t).periodInForce = s.periodInForce ∧
    (markTag s i t).urgent = s.urgent ∧ (markTag s i t).pointer = s.pointer ∧ (markTag s i t).tags = s.tags ∧
    (markTag s i t).fences = s.fences ∧ (markTag s i t).fenceOrder = s.fenceOrder ∧
    (markTag s i t).faults = s.faults ∧ (markTag s i t).overflow = s.overflow ∧
    (markTag s i t).readout = s.readout ∧ (markTag s i t).responses = s.responses ∧
    (markTag s i t).staged = s.staged ∧ (markTag s i t).active = s.active ∧ (markTag s i t).epoch = s.epoch ∧
    (markTag s i t).shortFrame = s.shortFrame ∧ (markTag s i t).timeBase = s.timeBase ∧
    (markTag s i t).causes = s.causes ∧ (markTag s i t).counters = s.counters ∧
    (markTag s i t).answer = s.answer ∧ (markTag s i t).issued = s.issued ∧ (markTag s i t).taken = s.taken ∧
    (markTag s i t).mgmt = s.mgmt ∧ (markTag s i t).pending = s.pending := by
  simp [markTag]

@[simp] theorem clearTag_frame (s : State) (i t) :
    (clearTag s i t).resetLine = s.resetLine ∧ (clearTag s i t).holdLine = s.holdLine ∧
    (clearTag s i t).part = s.part ∧ (clearTag s i t).refusals = s.refusals ∧ (clearTag s i t).slots = s.slots ∧
    (clearTag s i t).arrival = s.arrival ∧ (clearTag s i t).queues = s.queues ∧ (clearTag s i t).lines = s.lines ∧
    (clearTag s i t).entries = s.entries ∧ (clearTag s i t).balances = s.balances ∧
    (clearTag s i t).refillCount = s.refillCount ∧ (clearTag s i t).periodInForce = s.periodInForce ∧
    (clearTag s i t).urgent = s.urgent ∧ (clearTag s i t).pointer = s.pointer ∧ (clearTag s i t).tags = s.tags ∧
    (clearTag s i t).fences = s.fences ∧ (clearTag s i t).fenceOrder = s.fenceOrder ∧
    (clearTag s i t).faults = s.faults ∧ (clearTag s i t).overflow = s.overflow ∧
    (clearTag s i t).readout = s.readout ∧ (clearTag s i t).responses = s.responses ∧
    (clearTag s i t).staged = s.staged ∧ (clearTag s i t).active = s.active ∧ (clearTag s i t).epoch = s.epoch ∧
    (clearTag s i t).shortFrame = s.shortFrame ∧ (clearTag s i t).timeBase = s.timeBase ∧
    (clearTag s i t).causes = s.causes ∧ (clearTag s i t).counters = s.counters ∧
    (clearTag s i t).answer = s.answer ∧ (clearTag s i t).issued = s.issued ∧ (clearTag s i t).taken = s.taken ∧
    (clearTag s i t).mgmt = s.mgmt ∧ (clearTag s i t).pending = s.pending := by
  simp [clearTag]

@[simp] theorem enqueue_frame (s : State) (i k) :
    (enqueue s i k).resetLine = s.resetLine ∧ (enqueue s i k).holdLine = s.holdLine ∧
    (enqueue s i k).part = s.part ∧ (enqueue s i k).tagTable = s.tagTable ∧
    (enqueue s i k).refusals = s.refusals ∧ (enqueue s i k).slots = s.slots ∧ (enqueue s i k).lines = s.lines ∧
    (enqueue s i k).entries = s.entries ∧ (enqueue s i k).balances = s.balances ∧
    (enqueue s i k).refillCount = s.refillCount ∧ (enqueue s i k).periodInForce = s.periodInForce ∧
    (enqueue s i k).urgent = s.urgent ∧ (enqueue s i k).pointer = s.pointer ∧ (enqueue s i k).tags = s.tags ∧
    (enqueue s i k).fences = s.fences ∧ (enqueue s i k).fenceOrder = s.fenceOrder ∧
    (enqueue s i k).faults = s.faults ∧ (enqueue s i k).overflow = s.overflow ∧
    (enqueue s i k).readout = s.readout ∧ (enqueue s i k).responses = s.responses ∧
    (enqueue s i k).staged = s.staged ∧ (enqueue s i k).active = s.active ∧ (enqueue s i k).epoch = s.epoch ∧
    (enqueue s i k).shortFrame = s.shortFrame ∧ (enqueue s i k).timeBase = s.timeBase ∧
    (enqueue s i k).causes = s.causes ∧ (enqueue s i k).counters = s.counters ∧
    (enqueue s i k).answer = s.answer ∧ (enqueue s i k).issued = s.issued ∧ (enqueue s i k).taken = s.taken ∧
    (enqueue s i k).mgmt = s.mgmt ∧ (enqueue s i k).pending = s.pending := by
  simp [enqueue]

@[simp] theorem acceptAccess_frame (s : State) (a w i) :
    (acceptAccess s a w i).resetLine = s.resetLine ∧ (acceptAccess s a w i).holdLine = s.holdLine ∧
    (acceptAccess s a w i).part = s.part ∧ (acceptAccess s a w i).refusals = s.refusals ∧
    (acceptAccess s a w i).balances = s.balances ∧ (acceptAccess s a w i).refillCount = s.refillCount ∧
    (acceptAccess s a w i).periodInForce = s.periodInForce ∧ (acceptAccess s a w i).urgent = s.urgent ∧
    (acceptAccess s a w i).pointer = s.pointer ∧ (acceptAccess s a w i).tags = s.tags ∧
    (acceptAccess s a w i).fences = s.fences ∧ (acceptAccess s a w i).fenceOrder = s.fenceOrder ∧
    (acceptAccess s a w i).faults = s.faults ∧ (acceptAccess s a w i).overflow = s.overflow ∧
    (acceptAccess s a w i).readout = s.readout ∧ (acceptAccess s a w i).responses = s.responses ∧
    (acceptAccess s a w i).staged = s.staged ∧ (acceptAccess s a w i).active = s.active ∧
    (acceptAccess s a w i).epoch = s.epoch ∧ (acceptAccess s a w i).shortFrame = s.shortFrame ∧
    (acceptAccess s a w i).timeBase = s.timeBase ∧ (acceptAccess s a w i).causes = s.causes ∧
    (acceptAccess s a w i).issued = s.issued ∧ (acceptAccess s a w i).taken = s.taken ∧
    (acceptAccess s a w i).mgmt = s.mgmt ∧ (acceptAccess s a w i).pending = s.pending := by
  simp [acceptAccess]

@[simp] theorem takeAccess_frame (s : State) (a w) :
    (takeAccess s a w).resetLine = s.resetLine ∧ (takeAccess s a w).holdLine = s.holdLine ∧
    (takeAccess s a w).part = s.part ∧ (takeAccess s a w).refusals = s.refusals ∧
    (takeAccess s a w).balances = s.balances ∧ (takeAccess s a w).refillCount = s.refillCount ∧
    (takeAccess s a w).periodInForce = s.periodInForce ∧ (takeAccess s a w).urgent = s.urgent ∧
    (takeAccess s a w).pointer = s.pointer ∧ (takeAccess s a w).tags = s.tags ∧
    (takeAccess s a w).fences = s.fences ∧ (takeAccess s a w).fenceOrder = s.fenceOrder ∧
    (takeAccess s a w).faults = s.faults ∧ (takeAccess s a w).overflow = s.overflow ∧
    (takeAccess s a w).readout = s.readout ∧ (takeAccess s a w).responses = s.responses ∧
    (takeAccess s a w).staged = s.staged ∧ (takeAccess s a w).active = s.active ∧
    (takeAccess s a w).epoch = s.epoch ∧ (takeAccess s a w).shortFrame = s.shortFrame ∧
    (takeAccess s a w).timeBase = s.timeBase ∧ (takeAccess s a w).causes = s.causes ∧
    (takeAccess s a w).issued = s.issued ∧ (takeAccess s a w).taken = s.taken ∧ (takeAccess s a w).mgmt = s.mgmt ∧
    (takeAccess s a w).pending = s.pending := by
  simp only [takeAccess]
  repeat' split
  all_goals simp

@[simp] theorem demandFence_frame (s : State) (es) :
    (demandFence s es).resetLine = s.resetLine ∧ (demandFence s es).holdLine = s.holdLine ∧
    (demandFence s es).part = s.part ∧ (demandFence s es).tagTable = s.tagTable ∧
    (demandFence s es).refusals = s.refusals ∧ (demandFence s es).slots = s.slots ∧
    (demandFence s es).arrival = s.arrival ∧ (demandFence s es).queues = s.queues ∧
    (demandFence s es).lines = s.lines ∧ (demandFence s es).balances = s.balances ∧
    (demandFence s es).refillCount = s.refillCount ∧ (demandFence s es).periodInForce = s.periodInForce ∧
    (demandFence s es).urgent = s.urgent ∧ (demandFence s es).pointer = s.pointer ∧
    (demandFence s es).tags = s.tags ∧ (demandFence s es).fences = s.fences ∧
    (demandFence s es).fenceOrder = s.fenceOrder ∧ (demandFence s es).faults = s.faults ∧
    (demandFence s es).overflow = s.overflow ∧ (demandFence s es).readout = s.readout ∧
    (demandFence s es).responses = s.responses ∧ (demandFence s es).staged = s.staged ∧
    (demandFence s es).active = s.active ∧ (demandFence s es).epoch = s.epoch ∧
    (demandFence s es).shortFrame = s.shortFrame ∧ (demandFence s es).timeBase = s.timeBase ∧
    (demandFence s es).causes = s.causes ∧ (demandFence s es).counters = s.counters ∧
    (demandFence s es).answer = s.answer ∧ (demandFence s es).issued = s.issued ∧
    (demandFence s es).taken = s.taken ∧ (demandFence s es).mgmt = s.mgmt ∧ (demandFence s es).pending = s.pending :=
  ⟨foldl_eq State.resetLine (fun t i => by simp) _ s, foldl_eq State.holdLine (fun t i => by simp) _ s, foldl_eq State.part (fun t i => by simp) _ s, foldl_eq State.tagTable (fun t i => by simp) _ s, foldl_eq State.refusals (fun t i => by simp) _ s, foldl_eq State.slots (fun t i => by simp) _ s, foldl_eq State.arrival (fun t i => by simp) _ s, foldl_eq State.queues (fun t i => by simp) _ s, foldl_eq State.lines (fun t i => by simp) _ s, foldl_eq State.balances (fun t i => by simp) _ s, foldl_eq State.refillCount (fun t i => by simp) _ s, foldl_eq State.periodInForce (fun t i => by simp) _ s, foldl_eq State.urgent (fun t i => by simp) _ s, foldl_eq State.pointer (fun t i => by simp) _ s, foldl_eq State.tags (fun t i => by simp) _ s, foldl_eq State.fences (fun t i => by simp) _ s, foldl_eq State.fenceOrder (fun t i => by simp) _ s, foldl_eq State.faults (fun t i => by simp) _ s, foldl_eq State.overflow (fun t i => by simp) _ s, foldl_eq State.readout (fun t i => by simp) _ s, foldl_eq State.responses (fun t i => by simp) _ s, foldl_eq State.staged (fun t i => by simp) _ s, foldl_eq State.active (fun t i => by simp) _ s, foldl_eq State.epoch (fun t i => by simp) _ s, foldl_eq State.shortFrame (fun t i => by simp) _ s, foldl_eq State.timeBase (fun t i => by simp) _ s, foldl_eq State.causes (fun t i => by simp) _ s, foldl_eq State.counters (fun t i => by simp) _ s, foldl_eq State.answer (fun t i => by simp) _ s, foldl_eq State.issued (fun t i => by simp) _ s, foldl_eq State.taken (fun t i => by simp) _ s, foldl_eq State.mgmt (fun t i => by simp) _ s, foldl_eq State.pending (fun t i => by simp) _ s⟩

@[simp] theorem acceptFence_frame (s : State) (i t k) :
    (acceptFence s i t k).resetLine = s.resetLine ∧ (acceptFence s i t k).holdLine = s.holdLine ∧
    (acceptFence s i t k).part = s.part ∧ (acceptFence s i t k).refusals = s.refusals ∧
    (acceptFence s i t k).slots = s.slots ∧ (acceptFence s i t k).arrival = s.arrival ∧
    (acceptFence s i t k).queues = s.queues ∧ (acceptFence s i t k).lines = s.lines ∧
    (acceptFence s i t k).balances = s.balances ∧ (acceptFence s i t k).refillCount = s.refillCount ∧
    (acceptFence s i t k).periodInForce = s.periodInForce ∧ (acceptFence s i t k).urgent = s.urgent ∧
    (acceptFence s i t k).pointer = s.pointer ∧ (acceptFence s i t k).tags = s.tags ∧
    (acceptFence s i t k).faults = s.faults ∧ (acceptFence s i t k).overflow = s.overflow ∧
    (acceptFence s i t k).readout = s.readout ∧ (acceptFence s i t k).staged = s.staged ∧
    (acceptFence s i t k).active = s.active ∧ (acceptFence s i t k).epoch = s.epoch ∧
    (acceptFence s i t k).shortFrame = s.shortFrame ∧ (acceptFence s i t k).timeBase = s.timeBase ∧
    (acceptFence s i t k).causes = s.causes ∧ (acceptFence s i t k).counters = s.counters ∧
    (acceptFence s i t k).issued = s.issued ∧ (acceptFence s i t k).taken = s.taken ∧
    (acceptFence s i t k).mgmt = s.mgmt ∧ (acceptFence s i t k).pending = s.pending := by
  simp [acceptFence]

@[simp] theorem takeFence_frame (s : State) (i t) :
    (takeFence s i t).resetLine = s.resetLine ∧ (takeFence s i t).holdLine = s.holdLine ∧
    (takeFence s i t).part = s.part ∧ (takeFence s i t).refusals = s.refusals ∧
    (takeFence s i t).slots = s.slots ∧ (takeFence s i t).arrival = s.arrival ∧
    (takeFence s i t).queues = s.queues ∧ (takeFence s i t).lines = s.lines ∧
    (takeFence s i t).balances = s.balances ∧ (takeFence s i t).refillCount = s.refillCount ∧
    (takeFence s i t).periodInForce = s.periodInForce ∧ (takeFence s i t).urgent = s.urgent ∧
    (takeFence s i t).pointer = s.pointer ∧ (takeFence s i t).tags = s.tags ∧
    (takeFence s i t).faults = s.faults ∧ (takeFence s i t).overflow = s.overflow ∧
    (takeFence s i t).readout = s.readout ∧ (takeFence s i t).staged = s.staged ∧
    (takeFence s i t).active = s.active ∧ (takeFence s i t).epoch = s.epoch ∧
    (takeFence s i t).shortFrame = s.shortFrame ∧ (takeFence s i t).timeBase = s.timeBase ∧
    (takeFence s i t).causes = s.causes ∧ (takeFence s i t).issued = s.issued ∧
    (takeFence s i t).taken = s.taken ∧ (takeFence s i t).mgmt = s.mgmt ∧ (takeFence s i t).pending = s.pending := by
  simp only [takeFence]
  repeat' split
  all_goals simp

@[simp] theorem takePassing_frame (s : State) (r) :
    (takePassing s r).resetLine = s.resetLine ∧ (takePassing s r).holdLine = s.holdLine ∧
    (takePassing s r).part = s.part ∧ (takePassing s r).refusals = s.refusals ∧
    (takePassing s r).balances = s.balances ∧ (takePassing s r).refillCount = s.refillCount ∧
    (takePassing s r).periodInForce = s.periodInForce ∧ (takePassing s r).urgent = s.urgent ∧
    (takePassing s r).pointer = s.pointer ∧ (takePassing s r).tags = s.tags ∧
    (takePassing s r).faults = s.faults ∧ (takePassing s r).overflow = s.overflow ∧
    (takePassing s r).readout = s.readout ∧ (takePassing s r).staged = s.staged ∧
    (takePassing s r).active = s.active ∧ (takePassing s r).epoch = s.epoch ∧
    (takePassing s r).shortFrame = s.shortFrame ∧ (takePassing s r).timeBase = s.timeBase ∧
    (takePassing s r).causes = s.causes ∧ (takePassing s r).issued = s.issued ∧
    (takePassing s r).taken = s.taken ∧ (takePassing s r).mgmt = s.mgmt ∧ (takePassing s r).pending = s.pending := by
  simp only [takePassing]
  repeat' split
  all_goals simp

@[simp] theorem intake_frame (s : State) (r) :
    (intake s r).resetLine = s.resetLine ∧ (intake s r).holdLine = s.holdLine ∧ (intake s r).part = s.part ∧
    (intake s r).balances = s.balances ∧ (intake s r).refillCount = s.refillCount ∧
    (intake s r).periodInForce = s.periodInForce ∧ (intake s r).urgent = s.urgent ∧
    (intake s r).pointer = s.pointer ∧ (intake s r).tags = s.tags ∧ (intake s r).faults = s.faults ∧
    (intake s r).overflow = s.overflow ∧ (intake s r).readout = s.readout ∧ (intake s r).staged = s.staged ∧
    (intake s r).active = s.active ∧ (intake s r).epoch = s.epoch ∧ (intake s r).shortFrame = s.shortFrame ∧
    (intake s r).timeBase = s.timeBase ∧ (intake s r).causes = s.causes ∧ (intake s r).issued = s.issued ∧
    (intake s r).taken = s.taken ∧ (intake s r).mgmt = s.mgmt ∧ (intake s r).pending = s.pending := by
  simp only [intake]
  repeat' split
  all_goals simp

@[simp] theorem releaseRef_frame (s : State) (r) :
    (releaseRef s r).resetLine = s.resetLine ∧ (releaseRef s r).holdLine = s.holdLine ∧
    (releaseRef s r).part = s.part ∧ (releaseRef s r).queues = s.queues ∧ (releaseRef s r).lines = s.lines ∧
    (releaseRef s r).entries = s.entries ∧ (releaseRef s r).balances = s.balances ∧
    (releaseRef s r).refillCount = s.refillCount ∧ (releaseRef s r).periodInForce = s.periodInForce ∧
    (releaseRef s r).urgent = s.urgent ∧ (releaseRef s r).pointer = s.pointer ∧ (releaseRef s r).tags = s.tags ∧
    (releaseRef s r).faults = s.faults ∧ (releaseRef s r).overflow = s.overflow ∧
    (releaseRef s r).readout = s.readout ∧ (releaseRef s r).responses = s.responses ∧
    (releaseRef s r).staged = s.staged ∧ (releaseRef s r).active = s.active ∧ (releaseRef s r).epoch = s.epoch ∧
    (releaseRef s r).shortFrame = s.shortFrame ∧ (releaseRef s r).timeBase = s.timeBase ∧
    (releaseRef s r).causes = s.causes ∧ (releaseRef s r).counters = s.counters ∧
    (releaseRef s r).answer = s.answer ∧ (releaseRef s r).issued = s.issued ∧ (releaseRef s r).taken = s.taken ∧
    (releaseRef s r).mgmt = s.mgmt ∧ (releaseRef s r).pending = s.pending := by
  simp only [releaseRef]
  repeat' split
  all_goals simp

@[simp] theorem deliver_frame (s : State) :
    (deliver s).resetLine = s.resetLine ∧ (deliver s).holdLine = s.holdLine ∧ (deliver s).queues = s.queues ∧
    (deliver s).lines = s.lines ∧ (deliver s).entries = s.entries ∧ (deliver s).refillCount = s.refillCount ∧
    (deliver s).periodInForce = s.periodInForce ∧ (deliver s).urgent = s.urgent ∧ (deliver s).tags = s.tags ∧
    (deliver s).faults = s.faults ∧ (deliver s).overflow = s.overflow ∧ (deliver s).readout = s.readout ∧
    (deliver s).staged = s.staged ∧ (deliver s).active = s.active ∧ (deliver s).epoch = s.epoch ∧
    (deliver s).shortFrame = s.shortFrame ∧ (deliver s).timeBase = s.timeBase ∧
    (deliver s).counters = s.counters ∧ (deliver s).answer = s.answer ∧ (deliver s).issued = s.issued ∧
    (deliver s).mgmt = s.mgmt ∧ (deliver s).pending = s.pending := by
  simp only [deliver]
  repeat' split
  all_goals simp

/-! ## Grants -/

@[simp] theorem dequeue_frame (s : State) (i) :
    (dequeue s i).resetLine = s.resetLine ∧ (dequeue s i).holdLine = s.holdLine ∧ (dequeue s i).part = s.part ∧
    (dequeue s i).tagTable = s.tagTable ∧ (dequeue s i).refusals = s.refusals ∧
    (dequeue s i).arrival = s.arrival ∧ (dequeue s i).entries = s.entries ∧ (dequeue s i).balances = s.balances ∧
    (dequeue s i).refillCount = s.refillCount ∧ (dequeue s i).periodInForce = s.periodInForce ∧
    (dequeue s i).urgent = s.urgent ∧ (dequeue s i).pointer = s.pointer ∧ (dequeue s i).tags = s.tags ∧
    (dequeue s i).fences = s.fences ∧ (dequeue s i).fenceOrder = s.fenceOrder ∧ (dequeue s i).faults = s.faults ∧
    (dequeue s i).overflow = s.overflow ∧ (dequeue s i).readout = s.readout ∧
    (dequeue s i).responses = s.responses ∧ (dequeue s i).staged = s.staged ∧ (dequeue s i).active = s.active ∧
    (dequeue s i).epoch = s.epoch ∧ (dequeue s i).shortFrame = s.shortFrame ∧
    (dequeue s i).timeBase = s.timeBase ∧ (dequeue s i).causes = s.causes ∧ (dequeue s i).counters = s.counters ∧
    (dequeue s i).answer = s.answer ∧ (dequeue s i).issued = s.issued ∧ (dequeue s i).taken = s.taken ∧
    (dequeue s i).mgmt = s.mgmt ∧ (dequeue s i).pending = s.pending := by
  simp [dequeue]

@[simp] theorem mergeInto_frame (s : State) (i e) :
    (mergeInto s i e).resetLine = s.resetLine ∧ (mergeInto s i e).holdLine = s.holdLine ∧
    (mergeInto s i e).part = s.part ∧ (mergeInto s i e).tagTable = s.tagTable ∧
    (mergeInto s i e).refusals = s.refusals ∧ (mergeInto s i e).slots = s.slots ∧
    (mergeInto s i e).arrival = s.arrival ∧ (mergeInto s i e).queues = s.queues ∧
    (mergeInto s i e).lines = s.lines ∧ (mergeInto s i e).balances = s.balances ∧
    (mergeInto s i e).refillCount = s.refillCount ∧ (mergeInto s i e).periodInForce = s.periodInForce ∧
    (mergeInto s i e).urgent = s.urgent ∧ (mergeInto s i e).pointer = s.pointer ∧
    (mergeInto s i e).tags = s.tags ∧ (mergeInto s i e).fences = s.fences ∧
    (mergeInto s i e).fenceOrder = s.fenceOrder ∧ (mergeInto s i e).faults = s.faults ∧
    (mergeInto s i e).overflow = s.overflow ∧ (mergeInto s i e).readout = s.readout ∧
    (mergeInto s i e).responses = s.responses ∧ (mergeInto s i e).staged = s.staged ∧
    (mergeInto s i e).active = s.active ∧ (mergeInto s i e).epoch = s.epoch ∧
    (mergeInto s i e).shortFrame = s.shortFrame ∧ (mergeInto s i e).timeBase = s.timeBase ∧
    (mergeInto s i e).causes = s.causes ∧ (mergeInto s i e).answer = s.answer ∧
    (mergeInto s i e).issued = s.issued ∧ (mergeInto s i e).taken = s.taken ∧ (mergeInto s i e).mgmt = s.mgmt ∧
    (mergeInto s i e).pending = s.pending := by
  simp only [mergeInto]
  repeat' split
  all_goals simp

@[simp] theorem finishOk_frame (s : State) (i) :
    (finishOk s i).resetLine = s.resetLine ∧ (finishOk s i).holdLine = s.holdLine ∧ (finishOk s i).part = s.part ∧
    (finishOk s i).tagTable = s.tagTable ∧ (finishOk s i).refusals = s.refusals ∧
    (finishOk s i).arrival = s.arrival ∧ (finishOk s i).queues = s.queues ∧ (finishOk s i).lines = s.lines ∧
    (finishOk s i).entries = s.entries ∧ (finishOk s i).balances = s.balances ∧
    (finishOk s i).refillCount = s.refillCount ∧ (finishOk s i).periodInForce = s.periodInForce ∧
    (finishOk s i).urgent = s.urgent ∧ (finishOk s i).pointer = s.pointer ∧ (finishOk s i).tags = s.tags ∧
    (finishOk s i).fences = s.fences ∧ (finishOk s i).fenceOrder = s.fenceOrder ∧
    (finishOk s i).faults = s.faults ∧ (finishOk s i).overflow = s.overflow ∧ (finishOk s i).readout = s.readout ∧
    (finishOk s i).responses = s.responses ∧ (finishOk s i).staged = s.staged ∧ (finishOk s i).active = s.active ∧
    (finishOk s i).epoch = s.epoch ∧ (finishOk s i).shortFrame = s.shortFrame ∧
    (finishOk s i).timeBase = s.timeBase ∧ (finishOk s i).causes = s.causes ∧
    (finishOk s i).counters = s.counters ∧ (finishOk s i).answer = s.answer ∧ (finishOk s i).issued = s.issued ∧
    (finishOk s i).taken = s.taken ∧ (finishOk s i).mgmt = s.mgmt ∧ (finishOk s i).pending = s.pending := by
  simp [finishOk]

@[simp] theorem doForward_frame (s : State) (i e) :
    (doForward s i e).resetLine = s.resetLine ∧ (doForward s i e).holdLine = s.holdLine ∧
    (doForward s i e).part = s.part ∧ (doForward s i e).tagTable = s.tagTable ∧
    (doForward s i e).refusals = s.refusals ∧ (doForward s i e).arrival = s.arrival ∧
    (doForward s i e).queues = s.queues ∧ (doForward s i e).lines = s.lines ∧
    (doForward s i e).entries = s.entries ∧ (doForward s i e).balances = s.balances ∧
    (doForward s i e).refillCount = s.refillCount ∧ (doForward s i e).periodInForce = s.periodInForce ∧
    (doForward s i e).urgent = s.urgent ∧ (doForward s i e).pointer = s.pointer ∧
    (doForward s i e).tags = s.tags ∧ (doForward s i e).fences = s.fences ∧
    (doForward s i e).fenceOrder = s.fenceOrder ∧ (doForward s i e).faults = s.faults ∧
    (doForward s i e).overflow = s.overflow ∧ (doForward s i e).readout = s.readout ∧
    (doForward s i e).responses = s.responses ∧ (doForward s i e).staged = s.staged ∧
    (doForward s i e).active = s.active ∧ (doForward s i e).epoch = s.epoch ∧
    (doForward s i e).shortFrame = s.shortFrame ∧ (doForward s i e).timeBase = s.timeBase ∧
    (doForward s i e).causes = s.causes ∧ (doForward s i e).answer = s.answer ∧
    (doForward s i e).issued = s.issued ∧ (doForward s i e).taken = s.taken ∧ (doForward s i e).mgmt = s.mgmt ∧
    (doForward s i e).pending = s.pending := by
  simp [doForward]

@[simp] theorem doPlainRead_frame (s : State) (i) :
    (doPlainRead s i).resetLine = s.resetLine ∧ (doPlainRead s i).holdLine = s.holdLine ∧
    (doPlainRead s i).part = s.part ∧ (doPlainRead s i).tagTable = s.tagTable ∧
    (doPlainRead s i).refusals = s.refusals ∧ (doPlainRead s i).arrival = s.arrival ∧
    (doPlainRead s i).queues = s.queues ∧ (doPlainRead s i).lines = s.lines ∧
    (doPlainRead s i).entries = s.entries ∧ (doPlainRead s i).balances = s.balances ∧
    (doPlainRead s i).refillCount = s.refillCount ∧ (doPlainRead s i).periodInForce = s.periodInForce ∧
    (doPlainRead s i).urgent = s.urgent ∧ (doPlainRead s i).pointer = s.pointer ∧
    (doPlainRead s i).fences = s.fences ∧ (doPlainRead s i).fenceOrder = s.fenceOrder ∧
    (doPlainRead s i).faults = s.faults ∧ (doPlainRead s i).overflow = s.overflow ∧
    (doPlainRead s i).readout = s.readout ∧ (doPlainRead s i).responses = s.responses ∧
    (doPlainRead s i).staged = s.staged ∧ (doPlainRead s i).active = s.active ∧
    (doPlainRead s i).epoch = s.epoch ∧ (doPlainRead s i).shortFrame = s.shortFrame ∧
    (doPlainRead s i).timeBase = s.timeBase ∧ (doPlainRead s i).causes = s.causes ∧
    (doPlainRead s i).counters = s.counters ∧ (doPlainRead s i).answer = s.answer ∧
    (doPlainRead s i).taken = s.taken ∧ (doPlainRead s i).mgmt = s.mgmt ∧ (doPlainRead s i).pending = s.pending := by
  simp [doPlainRead]

@[simp] theorem doOverlay_frame (s : State) (i e) :
    (doOverlay s i e).resetLine = s.resetLine ∧ (doOverlay s i e).holdLine = s.holdLine ∧
    (doOverlay s i e).part = s.part ∧ (doOverlay s i e).tagTable = s.tagTable ∧
    (doOverlay s i e).refusals = s.refusals ∧ (doOverlay s i e).arrival = s.arrival ∧
    (doOverlay s i e).queues = s.queues ∧ (doOverlay s i e).lines = s.lines ∧
    (doOverlay s i e).entries = s.entries ∧ (doOverlay s i e).balances = s.balances ∧
    (doOverlay s i e).refillCount = s.refillCount ∧ (doOverlay s i e).periodInForce = s.periodInForce ∧
    (doOverlay s i e).urgent = s.urgent ∧ (doOverlay s i e).pointer = s.pointer ∧
    (doOverlay s i e).fences = s.fences ∧ (doOverlay s i e).fenceOrder = s.fenceOrder ∧
    (doOverlay s i e).faults = s.faults ∧ (doOverlay s i e).overflow = s.overflow ∧
    (doOverlay s i e).readout = s.readout ∧ (doOverlay s i e).responses = s.responses ∧
    (doOverlay s i e).staged = s.staged ∧ (doOverlay s i e).active = s.active ∧
    (doOverlay s i e).epoch = s.epoch ∧ (doOverlay s i e).shortFrame = s.shortFrame ∧
    (doOverlay s i e).timeBase = s.timeBase ∧ (doOverlay s i e).causes = s.causes ∧
    (doOverlay s i e).answer = s.answer ∧ (doOverlay s i e).taken = s.taken ∧ (doOverlay s i e).mgmt = s.mgmt ∧
    (doOverlay s i e).pending = s.pending := by
  simp [doOverlay]

@[simp] theorem doMerge_frame (s : State) (i e) :
    (doMerge s i e).resetLine = s.resetLine ∧ (doMerge s i e).holdLine = s.holdLine ∧
    (doMerge s i e).part = s.part ∧ (doMerge s i e).tagTable = s.tagTable ∧
    (doMerge s i e).refusals = s.refusals ∧ (doMerge s i e).arrival = s.arrival ∧
    (doMerge s i e).queues = s.queues ∧ (doMerge s i e).lines = s.lines ∧ (doMerge s i e).balances = s.balances ∧
    (doMerge s i e).refillCount = s.refillCount ∧ (doMerge s i e).periodInForce = s.periodInForce ∧
    (doMerge s i e).urgent = s.urgent ∧ (doMerge s i e).pointer = s.pointer ∧ (doMerge s i e).tags = s.tags ∧
    (doMerge s i e).fences = s.fences ∧ (doMerge s i e).fenceOrder = s.fenceOrder ∧
    (doMerge s i e).faults = s.faults ∧ (doMerge s i e).overflow = s.overflow ∧
    (doMerge s i e).readout = s.readout ∧ (doMerge s i e).responses = s.responses ∧
    (doMerge s i e).staged = s.staged ∧ (doMerge s i e).active = s.active ∧ (doMerge s i e).epoch = s.epoch ∧
    (doMerge s i e).shortFrame = s.shortFrame ∧ (doMerge s i e).timeBase = s.timeBase ∧
    (doMerge s i e).causes = s.causes ∧ (doMerge s i e).answer = s.answer ∧ (doMerge s i e).issued = s.issued ∧
    (doMerge s i e).taken = s.taken ∧ (doMerge s i e).mgmt = s.mgmt ∧ (doMerge s i e).pending = s.pending := by
  simp [doMerge]

@[simp] theorem awaitDrain_frame (s : State) (i e) :
    (awaitDrain s i e).resetLine = s.resetLine ∧ (awaitDrain s i e).holdLine = s.holdLine ∧
    (awaitDrain s i e).part = s.part ∧ (awaitDrain s i e).tagTable = s.tagTable ∧
    (awaitDrain s i e).refusals = s.refusals ∧ (awaitDrain s i e).arrival = s.arrival ∧
    (awaitDrain s i e).queues = s.queues ∧ (awaitDrain s i e).lines = s.lines ∧
    (awaitDrain s i e).balances = s.balances ∧ (awaitDrain s i e).refillCount = s.refillCount ∧
    (awaitDrain s i e).periodInForce = s.periodInForce ∧ (awaitDrain s i e).urgent = s.urgent ∧
    (awaitDrain s i e).pointer = s.pointer ∧ (awaitDrain s i e).tags = s.tags ∧
    (awaitDrain s i e).fences = s.fences ∧ (awaitDrain s i e).fenceOrder = s.fenceOrder ∧
    (awaitDrain s i e).faults = s.faults ∧ (awaitDrain s i e).overflow = s.overflow ∧
    (awaitDrain s i e).readout = s.readout ∧ (awaitDrain s i e).responses = s.responses ∧
    (awaitDrain s i e).staged = s.staged ∧ (awaitDrain s i e).active = s.active ∧
    (awaitDrain s i e).epoch = s.epoch ∧ (awaitDrain s i e).shortFrame = s.shortFrame ∧
    (awaitDrain s i e).timeBase = s.timeBase ∧ (awaitDrain s i e).causes = s.causes ∧
    (awaitDrain s i e).counters = s.counters ∧ (awaitDrain s i e).answer = s.answer ∧
    (awaitDrain s i e).issued = s.issued ∧ (awaitDrain s i e).taken = s.taken ∧ (awaitDrain s i e).mgmt = s.mgmt ∧
    (awaitDrain s i e).pending = s.pending := by
  simp [awaitDrain]

@[simp] theorem doMergeWait_frame (s : State) (i e) :
    (doMergeWait s i e).resetLine = s.resetLine ∧ (doMergeWait s i e).holdLine = s.holdLine ∧
    (doMergeWait s i e).part = s.part ∧ (doMergeWait s i e).tagTable = s.tagTable ∧
    (doMergeWait s i e).refusals = s.refusals ∧ (doMergeWait s i e).arrival = s.arrival ∧
    (doMergeWait s i e).queues = s.queues ∧ (doMergeWait s i e).lines = s.lines ∧
    (doMergeWait s i e).balances = s.balances ∧ (doMergeWait s i e).refillCount = s.refillCount ∧
    (doMergeWait s i e).periodInForce = s.periodInForce ∧ (doMergeWait s i e).urgent = s.urgent ∧
    (doMergeWait s i e).pointer = s.pointer ∧ (doMergeWait s i e).tags = s.tags ∧
    (doMergeWait s i e).fences = s.fences ∧ (doMergeWait s i e).fenceOrder = s.fenceOrder ∧
    (doMergeWait s i e).faults = s.faults ∧ (doMergeWait s i e).overflow = s.overflow ∧
    (doMergeWait s i e).readout = s.readout ∧ (doMergeWait s i e).responses = s.responses ∧
    (doMergeWait s i e).staged = s.staged ∧ (doMergeWait s i e).active = s.active ∧
    (doMergeWait s i e).epoch = s.epoch ∧ (doMergeWait s i e).shortFrame = s.shortFrame ∧
    (doMergeWait s i e).timeBase = s.timeBase ∧ (doMergeWait s i e).causes = s.causes ∧
    (doMergeWait s i e).answer = s.answer ∧ (doMergeWait s i e).issued = s.issued ∧
    (doMergeWait s i e).taken = s.taken ∧ (doMergeWait s i e).mgmt = s.mgmt ∧
    (doMergeWait s i e).pending = s.pending := by
  simp [doMergeWait]

@[simp] theorem drainCmdIfDraining_frame (s : State) (e) :
    (drainCmdIfDraining s e).resetLine = s.resetLine ∧ (drainCmdIfDraining s e).holdLine = s.holdLine ∧
    (drainCmdIfDraining s e).part = s.part ∧ (drainCmdIfDraining s e).tagTable = s.tagTable ∧
    (drainCmdIfDraining s e).refusals = s.refusals ∧ (drainCmdIfDraining s e).slots = s.slots ∧
    (drainCmdIfDraining s e).arrival = s.arrival ∧ (drainCmdIfDraining s e).queues = s.queues ∧
    (drainCmdIfDraining s e).lines = s.lines ∧ (drainCmdIfDraining s e).balances = s.balances ∧
    (drainCmdIfDraining s e).refillCount = s.refillCount ∧
    (drainCmdIfDraining s e).periodInForce = s.periodInForce ∧ (drainCmdIfDraining s e).urgent = s.urgent ∧
    (drainCmdIfDraining s e).pointer = s.pointer ∧ (drainCmdIfDraining s e).tags = s.tags ∧
    (drainCmdIfDraining s e).fences = s.fences ∧ (drainCmdIfDraining s e).fenceOrder = s.fenceOrder ∧
    (drainCmdIfDraining s e).faults = s.faults ∧ (drainCmdIfDraining s e).overflow = s.overflow ∧
    (drainCmdIfDraining s e).readout = s.readout ∧ (drainCmdIfDraining s e).responses = s.responses ∧
    (drainCmdIfDraining s e).staged = s.staged ∧ (drainCmdIfDraining s e).active = s.active ∧
    (drainCmdIfDraining s e).epoch = s.epoch ∧ (drainCmdIfDraining s e).shortFrame = s.shortFrame ∧
    (drainCmdIfDraining s e).timeBase = s.timeBase ∧ (drainCmdIfDraining s e).causes = s.causes ∧
    (drainCmdIfDraining s e).counters = s.counters ∧ (drainCmdIfDraining s e).answer = s.answer ∧
    (drainCmdIfDraining s e).issued = s.issued ∧ (drainCmdIfDraining s e).taken = s.taken ∧
    (drainCmdIfDraining s e).mgmt = s.mgmt ∧ (drainCmdIfDraining s e).pending = s.pending := by
  simp only [drainCmdIfDraining]
  repeat' split
  all_goals simp

@[simp] theorem doAllocate_frame (s : State) (i e) :
    (doAllocate s i e).resetLine = s.resetLine ∧ (doAllocate s i e).holdLine = s.holdLine ∧
    (doAllocate s i e).part = s.part ∧ (doAllocate s i e).tagTable = s.tagTable ∧
    (doAllocate s i e).refusals = s.refusals ∧ (doAllocate s i e).arrival = s.arrival ∧
    (doAllocate s i e).queues = s.queues ∧ (doAllocate s i e).balances = s.balances ∧
    (doAllocate s i e).refillCount = s.refillCount ∧ (doAllocate s i e).periodInForce = s.periodInForce ∧
    (doAllocate s i e).urgent = s.urgent ∧ (doAllocate s i e).pointer = s.pointer ∧
    (doAllocate s i e).tags = s.tags ∧ (doAllocate s i e).fences = s.fences ∧
    (doAllocate s i e).fenceOrder = s.fenceOrder ∧ (doAllocate s i e).faults = s.faults ∧
    (doAllocate s i e).overflow = s.overflow ∧ (doAllocate s i e).readout = s.readout ∧
    (doAllocate s i e).responses = s.responses ∧ (doAllocate s i e).staged = s.staged ∧
    (doAllocate s i e).active = s.active ∧ (doAllocate s i e).epoch = s.epoch ∧
    (doAllocate s i e).shortFrame = s.shortFrame ∧ (doAllocate s i e).timeBase = s.timeBase ∧
    (doAllocate s i e).causes = s.causes ∧ (doAllocate s i e).answer = s.answer ∧
    (doAllocate s i e).issued = s.issued ∧ (doAllocate s i e).taken = s.taken ∧ (doAllocate s i e).mgmt = s.mgmt ∧
    (doAllocate s i e).pending = s.pending := by
  simp [doAllocate]

@[simp] theorem doDirect_frame (s : State) (i) :
    (doDirect s i).resetLine = s.resetLine ∧ (doDirect s i).holdLine = s.holdLine ∧ (doDirect s i).part = s.part ∧
    (doDirect s i).tagTable = s.tagTable ∧ (doDirect s i).refusals = s.refusals ∧
    (doDirect s i).arrival = s.arrival ∧ (doDirect s i).queues = s.queues ∧ (doDirect s i).lines = s.lines ∧
    (doDirect s i).entries = s.entries ∧ (doDirect s i).balances = s.balances ∧
    (doDirect s i).refillCount = s.refillCount ∧ (doDirect s i).periodInForce = s.periodInForce ∧
    (doDirect s i).urgent = s.urgent ∧ (doDirect s i).pointer = s.pointer ∧ (doDirect s i).fences = s.fences ∧
    (doDirect s i).fenceOrder = s.fenceOrder ∧ (doDirect s i).faults = s.faults ∧
    (doDirect s i).overflow = s.overflow ∧ (doDirect s i).readout = s.readout ∧
    (doDirect s i).responses = s.responses ∧ (doDirect s i).staged = s.staged ∧ (doDirect s i).active = s.active ∧
    (doDirect s i).epoch = s.epoch ∧ (doDirect s i).shortFrame = s.shortFrame ∧
    (doDirect s i).timeBase = s.timeBase ∧ (doDirect s i).causes = s.causes ∧
    (doDirect s i).counters = s.counters ∧ (doDirect s i).answer = s.answer ∧ (doDirect s i).taken = s.taken ∧
    (doDirect s i).mgmt = s.mgmt ∧ (doDirect s i).pending = s.pending := by
  simp only [doDirect]
  repeat' split
  all_goals simp

@[simp] theorem doAction_frame (s : State) (i a) :
    (doAction s i a).resetLine = s.resetLine ∧ (doAction s i a).holdLine = s.holdLine ∧
    (doAction s i a).part = s.part ∧ (doAction s i a).tagTable = s.tagTable ∧
    (doAction s i a).refusals = s.refusals ∧ (doAction s i a).arrival = s.arrival ∧
    (doAction s i a).queues = s.queues ∧ (doAction s i a).balances = s.balances ∧
    (doAction s i a).refillCount = s.refillCount ∧ (doAction s i a).periodInForce = s.periodInForce ∧
    (doAction s i a).urgent = s.urgent ∧ (doAction s i a).pointer = s.pointer ∧
    (doAction s i a).fences = s.fences ∧ (doAction s i a).fenceOrder = s.fenceOrder ∧
    (doAction s i a).faults = s.faults ∧ (doAction s i a).overflow = s.overflow ∧
    (doAction s i a).readout = s.readout ∧ (doAction s i a).responses = s.responses ∧
    (doAction s i a).staged = s.staged ∧ (doAction s i a).active = s.active ∧ (doAction s i a).epoch = s.epoch ∧
    (doAction s i a).shortFrame = s.shortFrame ∧ (doAction s i a).timeBase = s.timeBase ∧
    (doAction s i a).causes = s.causes ∧ (doAction s i a).answer = s.answer ∧ (doAction s i a).taken = s.taken ∧
    (doAction s i a).mgmt = s.mgmt ∧ (doAction s i a).pending = s.pending := by
  simp only [doAction]
  repeat' split
  all_goals simp

@[simp] theorem joinWaitSets_frame (s : State) (i e) :
    (joinWaitSets s i e).resetLine = s.resetLine ∧ (joinWaitSets s i e).holdLine = s.holdLine ∧
    (joinWaitSets s i e).part = s.part ∧ (joinWaitSets s i e).tagTable = s.tagTable ∧
    (joinWaitSets s i e).refusals = s.refusals ∧ (joinWaitSets s i e).slots = s.slots ∧
    (joinWaitSets s i e).arrival = s.arrival ∧ (joinWaitSets s i e).queues = s.queues ∧
    (joinWaitSets s i e).lines = s.lines ∧ (joinWaitSets s i e).balances = s.balances ∧
    (joinWaitSets s i e).refillCount = s.refillCount ∧ (joinWaitSets s i e).periodInForce = s.periodInForce ∧
    (joinWaitSets s i e).urgent = s.urgent ∧ (joinWaitSets s i e).pointer = s.pointer ∧
    (joinWaitSets s i e).tags = s.tags ∧ (joinWaitSets s i e).fenceOrder = s.fenceOrder ∧
    (joinWaitSets s i e).faults = s.faults ∧ (joinWaitSets s i e).overflow = s.overflow ∧
    (joinWaitSets s i e).readout = s.readout ∧ (joinWaitSets s i e).responses = s.responses ∧
    (joinWaitSets s i e).staged = s.staged ∧ (joinWaitSets s i e).active = s.active ∧
    (joinWaitSets s i e).epoch = s.epoch ∧ (joinWaitSets s i e).shortFrame = s.shortFrame ∧
    (joinWaitSets s i e).timeBase = s.timeBase ∧ (joinWaitSets s i e).causes = s.causes ∧
    (joinWaitSets s i e).counters = s.counters ∧ (joinWaitSets s i e).answer = s.answer ∧
    (joinWaitSets s i e).issued = s.issued ∧ (joinWaitSets s i e).taken = s.taken ∧
    (joinWaitSets s i e).mgmt = s.mgmt ∧ (joinWaitSets s i e).pending = s.pending := by
  simp only [joinWaitSets]
  repeat' split
  all_goals simp

@[simp] theorem joinIfMerged_frame (s : State) (i a) :
    (joinIfMerged s i a).resetLine = s.resetLine ∧ (joinIfMerged s i a).holdLine = s.holdLine ∧
    (joinIfMerged s i a).part = s.part ∧ (joinIfMerged s i a).tagTable = s.tagTable ∧
    (joinIfMerged s i a).refusals = s.refusals ∧ (joinIfMerged s i a).slots = s.slots ∧
    (joinIfMerged s i a).arrival = s.arrival ∧ (joinIfMerged s i a).queues = s.queues ∧
    (joinIfMerged s i a).lines = s.lines ∧ (joinIfMerged s i a).balances = s.balances ∧
    (joinIfMerged s i a).refillCount = s.refillCount ∧ (joinIfMerged s i a).periodInForce = s.periodInForce ∧
    (joinIfMerged s i a).urgent = s.urgent ∧ (joinIfMerged s i a).pointer = s.pointer ∧
    (joinIfMerged s i a).tags = s.tags ∧ (joinIfMerged s i a).fenceOrder = s.fenceOrder ∧
    (joinIfMerged s i a).faults = s.faults ∧ (joinIfMerged s i a).overflow = s.overflow ∧
    (joinIfMerged s i a).readout = s.readout ∧ (joinIfMerged s i a).responses = s.responses ∧
    (joinIfMerged s i a).staged = s.staged ∧ (joinIfMerged s i a).active = s.active ∧
    (joinIfMerged s i a).epoch = s.epoch ∧ (joinIfMerged s i a).shortFrame = s.shortFrame ∧
    (joinIfMerged s i a).timeBase = s.timeBase ∧ (joinIfMerged s i a).causes = s.causes ∧
    (joinIfMerged s i a).counters = s.counters ∧ (joinIfMerged s i a).answer = s.answer ∧
    (joinIfMerged s i a).issued = s.issued ∧ (joinIfMerged s i a).taken = s.taken ∧
    (joinIfMerged s i a).mgmt = s.mgmt ∧ (joinIfMerged s i a).pending = s.pending := by
  simp only [joinIfMerged]
  repeat' split
  all_goals simp

@[simp] theorem pressureIfAllocated_frame (s : State) (a) :
    (pressureIfAllocated s a).resetLine = s.resetLine ∧ (pressureIfAllocated s a).holdLine = s.holdLine ∧
    (pressureIfAllocated s a).part = s.part ∧ (pressureIfAllocated s a).tagTable = s.tagTable ∧
    (pressureIfAllocated s a).refusals = s.refusals ∧ (pressureIfAllocated s a).slots = s.slots ∧
    (pressureIfAllocated s a).arrival = s.arrival ∧ (pressureIfAllocated s a).queues = s.queues ∧
    (pressureIfAllocated s a).lines = s.lines ∧ (pressureIfAllocated s a).balances = s.balances ∧
    (pressureIfAllocated s a).refillCount = s.refillCount ∧
    (pressureIfAllocated s a).periodInForce = s.periodInForce ∧ (pressureIfAllocated s a).urgent = s.urgent ∧
    (pressureIfAllocated s a).pointer = s.pointer ∧ (pressureIfAllocated s a).tags = s.tags ∧
    (pressureIfAllocated s a).fences = s.fences ∧ (pressureIfAllocated s a).fenceOrder = s.fenceOrder ∧
    (pressureIfAllocated s a).faults = s.faults ∧ (pressureIfAllocated s a).overflow = s.overflow ∧
    (pressureIfAllocated s a).readout = s.readout ∧ (pressureIfAllocated s a).responses = s.responses ∧
    (pressureIfAllocated s a).staged = s.staged ∧ (pressureIfAllocated s a).active = s.active ∧
    (pressureIfAllocated s a).epoch = s.epoch ∧ (pressureIfAllocated s a).shortFrame = s.shortFrame ∧
    (pressureIfAllocated s a).timeBase = s.timeBase ∧ (pressureIfAllocated s a).causes = s.causes ∧
    (pressureIfAllocated s a).counters = s.counters ∧ (pressureIfAllocated s a).answer = s.answer ∧
    (pressureIfAllocated s a).issued = s.issued ∧ (pressureIfAllocated s a).taken = s.taken ∧
    (pressureIfAllocated s a).mgmt = s.mgmt ∧ (pressureIfAllocated s a).pending = s.pending := by
  simp only [pressureIfAllocated]
  repeat' split
  all_goals simp

@[simp] theorem movePointer_frame (s : State) (c rr) :
    (movePointer s c rr).resetLine = s.resetLine ∧ (movePointer s c rr).holdLine = s.holdLine ∧
    (movePointer s c rr).part = s.part ∧ (movePointer s c rr).tagTable = s.tagTable ∧
    (movePointer s c rr).refusals = s.refusals ∧ (movePointer s c rr).slots = s.slots ∧
    (movePointer s c rr).arrival = s.arrival ∧ (movePointer s c rr).queues = s.queues ∧
    (movePointer s c rr).lines = s.lines ∧ (movePointer s c rr).entries = s.entries ∧
    (movePointer s c rr).balances = s.balances ∧ (movePointer s c rr).refillCount = s.refillCount ∧
    (movePointer s c rr).periodInForce = s.periodInForce ∧ (movePointer s c rr).urgent = s.urgent ∧
    (movePointer s c rr).tags = s.tags ∧ (movePointer s c rr).fences = s.fences ∧
    (movePointer s c rr).fenceOrder = s.fenceOrder ∧ (movePointer s c rr).faults = s.faults ∧
    (movePointer s c rr).overflow = s.overflow ∧ (movePointer s c rr).readout = s.readout ∧
    (movePointer s c rr).responses = s.responses ∧ (movePointer s c rr).staged = s.staged ∧
    (movePointer s c rr).active = s.active ∧ (movePointer s c rr).epoch = s.epoch ∧
    (movePointer s c rr).shortFrame = s.shortFrame ∧ (movePointer s c rr).timeBase = s.timeBase ∧
    (movePointer s c rr).causes = s.causes ∧ (movePointer s c rr).counters = s.counters ∧
    (movePointer s c rr).answer = s.answer ∧ (movePointer s c rr).issued = s.issued ∧
    (movePointer s c rr).taken = s.taken ∧ (movePointer s c rr).mgmt = s.mgmt ∧
    (movePointer s c rr).pending = s.pending := by
  simp only [movePointer]
  repeat' split
  all_goals simp

@[simp] theorem followLine_frame (s : State) (i l a) :
    (followLine s i l a).resetLine = s.resetLine ∧ (followLine s i l a).holdLine = s.holdLine ∧
    (followLine s i l a).part = s.part ∧ (followLine s i l a).tagTable = s.tagTable ∧
    (followLine s i l a).refusals = s.refusals ∧ (followLine s i l a).slots = s.slots ∧
    (followLine s i l a).arrival = s.arrival ∧ (followLine s i l a).queues = s.queues ∧
    (followLine s i l a).balances = s.balances ∧ (followLine s i l a).refillCount = s.refillCount ∧
    (followLine s i l a).periodInForce = s.periodInForce ∧ (followLine s i l a).urgent = s.urgent ∧
    (followLine s i l a).pointer = s.pointer ∧ (followLine s i l a).tags = s.tags ∧
    (followLine s i l a).fenceOrder = s.fenceOrder ∧ (followLine s i l a).faults = s.faults ∧
    (followLine s i l a).overflow = s.overflow ∧ (followLine s i l a).readout = s.readout ∧
    (followLine s i l a).responses = s.responses ∧ (followLine s i l a).staged = s.staged ∧
    (followLine s i l a).active = s.active ∧ (followLine s i l a).epoch = s.epoch ∧
    (followLine s i l a).shortFrame = s.shortFrame ∧ (followLine s i l a).timeBase = s.timeBase ∧
    (followLine s i l a).causes = s.causes ∧ (followLine s i l a).counters = s.counters ∧
    (followLine s i l a).answer = s.answer ∧ (followLine s i l a).issued = s.issued ∧
    (followLine s i l a).taken = s.taken ∧ (followLine s i l a).mgmt = s.mgmt ∧
    (followLine s i l a).pending = s.pending := by
  simp [followLine]

@[simp] theorem grantSlot_frame (s : State) (i a c rr) :
    (grantSlot s i a c rr).resetLine = s.resetLine ∧ (grantSlot s i a c rr).holdLine = s.holdLine ∧
    (grantSlot s i a c rr).part = s.part ∧ (grantSlot s i a c rr).tagTable = s.tagTable ∧
    (grantSlot s i a c rr).refusals = s.refusals ∧ (grantSlot s i a c rr).arrival = s.arrival ∧
    (grantSlot s i a c rr).refillCount = s.refillCount ∧ (grantSlot s i a c rr).periodInForce = s.periodInForce ∧
    (grantSlot s i a c rr).fenceOrder = s.fenceOrder ∧ (grantSlot s i a c rr).faults = s.faults ∧
    (grantSlot s i a c rr).overflow = s.overflow ∧ (grantSlot s i a c rr).readout = s.readout ∧
    (grantSlot s i a c rr).responses = s.responses ∧ (grantSlot s i a c rr).staged = s.staged ∧
    (grantSlot s i a c rr).active = s.active ∧ (grantSlot s i a c rr).epoch = s.epoch ∧
    (grantSlot s i a c rr).shortFrame = s.shortFrame ∧ (grantSlot s i a c rr).timeBase = s.timeBase ∧
    (grantSlot s i a c rr).causes = s.causes ∧ (grantSlot s i a c rr).answer = s.answer ∧
    (grantSlot s i a c rr).taken = s.taken ∧ (grantSlot s i a c rr).mgmt = s.mgmt ∧
    (grantSlot s i a c rr).pending = s.pending := by
  simp [grantSlot]

@[simp] theorem grantDrain_frame (s : State) (e) :
    (grantDrain s e).resetLine = s.resetLine ∧ (grantDrain s e).holdLine = s.holdLine ∧
    (grantDrain s e).part = s.part ∧ (grantDrain s e).tagTable = s.tagTable ∧
    (grantDrain s e).refusals = s.refusals ∧ (grantDrain s e).slots = s.slots ∧
    (grantDrain s e).arrival = s.arrival ∧ (grantDrain s e).queues = s.queues ∧ (grantDrain s e).lines = s.lines ∧
    (grantDrain s e).balances = s.balances ∧ (grantDrain s e).refillCount = s.refillCount ∧
    (grantDrain s e).periodInForce = s.periodInForce ∧ (grantDrain s e).urgent = s.urgent ∧
    (grantDrain s e).pointer = s.pointer ∧ (grantDrain s e).fences = s.fences ∧
    (grantDrain s e).fenceOrder = s.fenceOrder ∧ (grantDrain s e).faults = s.faults ∧
    (grantDrain s e).overflow = s.overflow ∧ (grantDrain s e).readout = s.readout ∧
    (grantDrain s e).responses = s.responses ∧ (grantDrain s e).staged = s.staged ∧
    (grantDrain s e).active = s.active ∧ (grantDrain s e).epoch = s.epoch ∧
    (grantDrain s e).shortFrame = s.shortFrame ∧ (grantDrain s e).timeBase = s.timeBase ∧
    (grantDrain s e).causes = s.causes ∧ (grantDrain s e).answer = s.answer ∧ (grantDrain s e).taken = s.taken ∧
    (grantDrain s e).mgmt = s.mgmt ∧ (grantDrain s e).pending = s.pending := by
  simp [grantDrain]

@[simp] theorem nextSlotGrant_frame (s : State) :
    (nextSlotGrant s).resetLine = s.resetLine ∧ (nextSlotGrant s).holdLine = s.holdLine ∧
    (nextSlotGrant s).part = s.part ∧ (nextSlotGrant s).tagTable = s.tagTable ∧
    (nextSlotGrant s).refusals = s.refusals ∧ (nextSlotGrant s).arrival = s.arrival ∧
    (nextSlotGrant s).refillCount = s.refillCount ∧ (nextSlotGrant s).periodInForce = s.periodInForce ∧
    (nextSlotGrant s).fenceOrder = s.fenceOrder ∧ (nextSlotGrant s).faults = s.faults ∧
    (nextSlotGrant s).overflow = s.overflow ∧ (nextSlotGrant s).readout = s.readout ∧
    (nextSlotGrant s).staged = s.staged ∧ (nextSlotGrant s).active = s.active ∧
    (nextSlotGrant s).epoch = s.epoch ∧ (nextSlotGrant s).shortFrame = s.shortFrame ∧
    (nextSlotGrant s).timeBase = s.timeBase ∧ (nextSlotGrant s).causes = s.causes ∧
    (nextSlotGrant s).answer = s.answer ∧ (nextSlotGrant s).taken = s.taken ∧ (nextSlotGrant s).mgmt = s.mgmt ∧
    (nextSlotGrant s).pending = s.pending := by
  simp only [nextSlotGrant]
  repeat' split
  all_goals simp

@[simp] theorem nextDrainGrant_frame (s : State) :
    (nextDrainGrant s).resetLine = s.resetLine ∧ (nextDrainGrant s).holdLine = s.holdLine ∧
    (nextDrainGrant s).part = s.part ∧ (nextDrainGrant s).tagTable = s.tagTable ∧
    (nextDrainGrant s).refusals = s.refusals ∧ (nextDrainGrant s).slots = s.slots ∧
    (nextDrainGrant s).arrival = s.arrival ∧ (nextDrainGrant s).queues = s.queues ∧
    (nextDrainGrant s).lines = s.lines ∧ (nextDrainGrant s).balances = s.balances ∧
    (nextDrainGrant s).refillCount = s.refillCount ∧ (nextDrainGrant s).periodInForce = s.periodInForce ∧
    (nextDrainGrant s).urgent = s.urgent ∧ (nextDrainGrant s).pointer = s.pointer ∧
    (nextDrainGrant s).fences = s.fences ∧ (nextDrainGrant s).fenceOrder = s.fenceOrder ∧
    (nextDrainGrant s).faults = s.faults ∧ (nextDrainGrant s).overflow = s.overflow ∧
    (nextDrainGrant s).readout = s.readout ∧ (nextDrainGrant s).responses = s.responses ∧
    (nextDrainGrant s).staged = s.staged ∧ (nextDrainGrant s).active = s.active ∧
    (nextDrainGrant s).epoch = s.epoch ∧ (nextDrainGrant s).shortFrame = s.shortFrame ∧
    (nextDrainGrant s).timeBase = s.timeBase ∧ (nextDrainGrant s).causes = s.causes ∧
    (nextDrainGrant s).answer = s.answer ∧ (nextDrainGrant s).taken = s.taken ∧ (nextDrainGrant s).mgmt = s.mgmt ∧
    (nextDrainGrant s).pending = s.pending := by
  simp only [nextDrainGrant]
  repeat' split
  all_goals simp

/-! ## Memory port and time base -/

@[simp] theorem strayCompletion_frame (s : State) :
    (strayCompletion s).resetLine = s.resetLine ∧ (strayCompletion s).holdLine = s.holdLine ∧
    (strayCompletion s).part = s.part ∧ (strayCompletion s).tagTable = s.tagTable ∧
    (strayCompletion s).refusals = s.refusals ∧ (strayCompletion s).slots = s.slots ∧
    (strayCompletion s).arrival = s.arrival ∧ (strayCompletion s).queues = s.queues ∧
    (strayCompletion s).lines = s.lines ∧ (strayCompletion s).entries = s.entries ∧
    (strayCompletion s).balances = s.balances ∧ (strayCompletion s).refillCount = s.refillCount ∧
    (strayCompletion s).periodInForce = s.periodInForce ∧ (strayCompletion s).urgent = s.urgent ∧
    (strayCompletion s).pointer = s.pointer ∧ (strayCompletion s).tags = s.tags ∧
    (strayCompletion s).fences = s.fences ∧ (strayCompletion s).fenceOrder = s.fenceOrder ∧
    (strayCompletion s).faults = s.faults ∧ (strayCompletion s).overflow = s.overflow ∧
    (strayCompletion s).readout = s.readout ∧ (strayCompletion s).responses = s.responses ∧
    (strayCompletion s).staged = s.staged ∧ (strayCompletion s).active = s.active ∧
    (strayCompletion s).epoch = s.epoch ∧ (strayCompletion s).shortFrame = s.shortFrame ∧
    (strayCompletion s).timeBase = s.timeBase ∧ (strayCompletion s).answer = s.answer ∧
    (strayCompletion s).issued = s.issued ∧ (strayCompletion s).taken = s.taken ∧
    (strayCompletion s).mgmt = s.mgmt ∧ (strayCompletion s).pending = s.pending := by
  simp [strayCompletion]

@[simp] theorem lateCompletion_frame (s : State) (t) :
    (lateCompletion s t).resetLine = s.resetLine ∧ (lateCompletion s t).holdLine = s.holdLine ∧
    (lateCompletion s t).part = s.part ∧ (lateCompletion s t).tagTable = s.tagTable ∧
    (lateCompletion s t).refusals = s.refusals ∧ (lateCompletion s t).slots = s.slots ∧
    (lateCompletion s t).arrival = s.arrival ∧ (lateCompletion s t).queues = s.queues ∧
    (lateCompletion s t).lines = s.lines ∧ (lateCompletion s t).entries = s.entries ∧
    (lateCompletion s t).balances = s.balances ∧ (lateCompletion s t).refillCount = s.refillCount ∧
    (lateCompletion s t).periodInForce = s.periodInForce ∧ (lateCompletion s t).urgent = s.urgent ∧
    (lateCompletion s t).pointer = s.pointer ∧ (lateCompletion s t).fences = s.fences ∧
    (lateCompletion s t).fenceOrder = s.fenceOrder ∧ (lateCompletion s t).faults = s.faults ∧
    (lateCompletion s t).overflow = s.overflow ∧ (lateCompletion s t).readout = s.readout ∧
    (lateCompletion s t).responses = s.responses ∧ (lateCompletion s t).staged = s.staged ∧
    (lateCompletion s t).active = s.active ∧ (lateCompletion s t).epoch = s.epoch ∧
    (lateCompletion s t).shortFrame = s.shortFrame ∧ (lateCompletion s t).timeBase = s.timeBase ∧
    (lateCompletion s t).causes = s.causes ∧ (lateCompletion s t).answer = s.answer ∧
    (lateCompletion s t).issued = s.issued ∧ (lateCompletion s t).taken = s.taken ∧
    (lateCompletion s t).mgmt = s.mgmt ∧ (lateCompletion s t).pending = s.pending := by
  simp [lateCompletion]

@[simp] theorem endOp_frame (s : State) (t op o) :
    (endOp s t op o).resetLine = s.resetLine ∧ (endOp s t op o).holdLine = s.holdLine ∧
    (endOp s t op o).tagTable = s.tagTable ∧ (endOp s t op o).refusals = s.refusals ∧
    (endOp s t op o).queues = s.queues ∧ (endOp s t op o).refillCount = s.refillCount ∧
    (endOp s t op o).periodInForce = s.periodInForce ∧ (endOp s t op o).urgent = s.urgent ∧
    (endOp s t op o).fenceOrder = s.fenceOrder ∧ (endOp s t op o).readout = s.readout ∧
    (endOp s t op o).staged = s.staged ∧ (endOp s t op o).active = s.active ∧ (endOp s t op o).epoch = s.epoch ∧
    (endOp s t op o).shortFrame = s.shortFrame ∧ (endOp s t op o).timeBase = s.timeBase ∧
    (endOp s t op o).counters = s.counters ∧ (endOp s t op o).answer = s.answer ∧
    (endOp s t op o).issued = s.issued ∧ (endOp s t op o).taken = s.taken ∧ (endOp s t op o).mgmt = s.mgmt ∧
    (endOp s t op o).pending = s.pending := by
  simp [endOp]

@[simp] theorem completeTag_frame (s : State) (t o) :
    (completeTag s t o).resetLine = s.resetLine ∧ (completeTag s t o).holdLine = s.holdLine ∧
    (completeTag s t o).tagTable = s.tagTable ∧ (completeTag s t o).refusals = s.refusals ∧
    (completeTag s t o).queues = s.queues ∧ (completeTag s t o).refillCount = s.refillCount ∧
    (completeTag s t o).periodInForce = s.periodInForce ∧ (completeTag s t o).urgent = s.urgent ∧
    (completeTag s t o).fenceOrder = s.fenceOrder ∧ (completeTag s t o).readout = s.readout ∧
    (completeTag s t o).staged = s.staged ∧ (completeTag s t o).active = s.active ∧
    (completeTag s t o).epoch = s.epoch ∧ (completeTag s t o).shortFrame = s.shortFrame ∧
    (completeTag s t o).timeBase = s.timeBase ∧ (completeTag s t o).answer = s.answer ∧
    (completeTag s t o).issued = s.issued ∧ (completeTag s t o).taken = s.taken ∧
    (completeTag s t o).mgmt = s.mgmt ∧ (completeTag s t o).pending = s.pending := by
  simp only [completeTag]
  repeat' split
  all_goals simp

@[simp] theorem complete_frame (s : State) (t o) :
    (complete s t o).resetLine = s.resetLine ∧ (complete s t o).holdLine = s.holdLine ∧
    (complete s t o).tagTable = s.tagTable ∧ (complete s t o).refusals = s.refusals ∧
    (complete s t o).queues = s.queues ∧ (complete s t o).refillCount = s.refillCount ∧
    (complete s t o).periodInForce = s.periodInForce ∧ (complete s t o).urgent = s.urgent ∧
    (complete s t o).fenceOrder = s.fenceOrder ∧ (complete s t o).readout = s.readout ∧
    (complete s t o).staged = s.staged ∧ (complete s t o).active = s.active ∧ (complete s t o).epoch = s.epoch ∧
    (complete s t o).shortFrame = s.shortFrame ∧ (complete s t o).timeBase = s.timeBase ∧
    (complete s t o).answer = s.answer ∧ (complete s t o).issued = s.issued ∧ (complete s t o).taken = s.taken ∧
    (complete s t o).mgmt = s.mgmt ∧ (complete s t o).pending = s.pending := by
  simp only [complete]
  repeat' split
  all_goals simp

@[simp] theorem advanceTime_frame (s : State) :
    (advanceTime s).resetLine = s.resetLine ∧ (advanceTime s).holdLine = s.holdLine ∧
    (advanceTime s).part = s.part ∧ (advanceTime s).tagTable = s.tagTable ∧
    (advanceTime s).refusals = s.refusals ∧ (advanceTime s).arrival = s.arrival ∧
    (advanceTime s).queues = s.queues ∧ (advanceTime s).lines = s.lines ∧ (advanceTime s).entries = s.entries ∧
    (advanceTime s).balances = s.balances ∧ (advanceTime s).urgent = s.urgent ∧
    (advanceTime s).pointer = s.pointer ∧ (advanceTime s).tags = s.tags ∧ (advanceTime s).fences = s.fences ∧
    (advanceTime s).fenceOrder = s.fenceOrder ∧ (advanceTime s).faults = s.faults ∧
    (advanceTime s).overflow = s.overflow ∧ (advanceTime s).readout = s.readout ∧
    (advanceTime s).responses = s.responses ∧ (advanceTime s).staged = s.staged ∧
    (advanceTime s).active = s.active ∧ (advanceTime s).epoch = s.epoch ∧
    (advanceTime s).shortFrame = s.shortFrame ∧ (advanceTime s).causes = s.causes ∧
    (advanceTime s).counters = s.counters ∧ (advanceTime s).answer = s.answer ∧
    (advanceTime s).issued = s.issued ∧ (advanceTime s).taken = s.taken ∧ (advanceTime s).mgmt = s.mgmt ∧
    (advanceTime s).pending = s.pending := by
  simp [advanceTime]

@[simp] theorem timeStep_frame (s : State) :
    (timeStep s).resetLine = s.resetLine ∧ (timeStep s).holdLine = s.holdLine ∧
    (timeStep s).tagTable = s.tagTable ∧ (timeStep s).refusals = s.refusals ∧ (timeStep s).queues = s.queues ∧
    (timeStep s).fenceOrder = s.fenceOrder ∧ (timeStep s).readout = s.readout ∧ (timeStep s).staged = s.staged ∧
    (timeStep s).active = s.active ∧ (timeStep s).epoch = s.epoch ∧ (timeStep s).shortFrame = s.shortFrame ∧
    (timeStep s).answer = s.answer ∧ (timeStep s).issued = s.issued ∧ (timeStep s).taken = s.taken ∧
    (timeStep s).mgmt = s.mgmt ∧ (timeStep s).pending = s.pending := by
  simp [timeStep]

/-! ## Regulator control and management -/

@[simp] theorem answerPart_frame (s : State) :
    (answerPart s).resetLine = s.resetLine ∧ (answerPart s).holdLine = s.holdLine ∧ (answerPart s).part = s.part ∧
    (answerPart s).tagTable = s.tagTable ∧ (answerPart s).refusals = s.refusals ∧ (answerPart s).slots = s.slots ∧
    (answerPart s).arrival = s.arrival ∧ (answerPart s).queues = s.queues ∧ (answerPart s).lines = s.lines ∧
    (answerPart s).entries = s.entries ∧ (answerPart s).balances = s.balances ∧
    (answerPart s).refillCount = s.refillCount ∧ (answerPart s).periodInForce = s.periodInForce ∧
    (answerPart s).urgent = s.urgent ∧ (answerPart s).pointer = s.pointer ∧ (answerPart s).tags = s.tags ∧
    (answerPart s).fences = s.fences ∧ (answerPart s).fenceOrder = s.fenceOrder ∧
    (answerPart s).faults = s.faults ∧ (answerPart s).overflow = s.overflow ∧ (answerPart s).readout = s.readout ∧
    (answerPart s).responses = s.responses ∧ (answerPart s).staged = s.staged ∧ (answerPart s).active = s.active ∧
    (answerPart s).epoch = s.epoch ∧ (answerPart s).shortFrame = s.shortFrame ∧
    (answerPart s).timeBase = s.timeBase ∧ (answerPart s).causes = s.causes ∧
    (answerPart s).counters = s.counters ∧ (answerPart s).answer = s.answer ∧ (answerPart s).issued = s.issued ∧
    (answerPart s).taken = s.taken ∧ (answerPart s).pending = s.pending := by
  simp [answerPart]

@[simp] theorem answerBusy_frame (s : State) :
    (answerBusy s).resetLine = s.resetLine ∧ (answerBusy s).holdLine = s.holdLine ∧ (answerBusy s).part = s.part ∧
    (answerBusy s).tagTable = s.tagTable ∧ (answerBusy s).refusals = s.refusals ∧ (answerBusy s).slots = s.slots ∧
    (answerBusy s).arrival = s.arrival ∧ (answerBusy s).queues = s.queues ∧ (answerBusy s).lines = s.lines ∧
    (answerBusy s).entries = s.entries ∧ (answerBusy s).balances = s.balances ∧
    (answerBusy s).refillCount = s.refillCount ∧ (answerBusy s).periodInForce = s.periodInForce ∧
    (answerBusy s).urgent = s.urgent ∧ (answerBusy s).pointer = s.pointer ∧ (answerBusy s).tags = s.tags ∧
    (answerBusy s).fences = s.fences ∧ (answerBusy s).fenceOrder = s.fenceOrder ∧
    (answerBusy s).faults = s.faults ∧ (answerBusy s).overflow = s.overflow ∧ (answerBusy s).readout = s.readout ∧
    (answerBusy s).responses = s.responses ∧ (answerBusy s).staged = s.staged ∧ (answerBusy s).active = s.active ∧
    (answerBusy s).epoch = s.epoch ∧ (answerBusy s).shortFrame = s.shortFrame ∧
    (answerBusy s).timeBase = s.timeBase ∧ (answerBusy s).causes = s.causes ∧
    (answerBusy s).counters = s.counters ∧ (answerBusy s).answer = s.answer ∧ (answerBusy s).issued = s.issued ∧
    (answerBusy s).taken = s.taken ∧ (answerBusy s).pending = s.pending := by
  simp [answerBusy]

@[simp] theorem demandAll_frame (s : State) :
    (demandAll s).resetLine = s.resetLine ∧ (demandAll s).holdLine = s.holdLine ∧ (demandAll s).part = s.part ∧
    (demandAll s).tagTable = s.tagTable ∧ (demandAll s).refusals = s.refusals ∧ (demandAll s).slots = s.slots ∧
    (demandAll s).arrival = s.arrival ∧ (demandAll s).queues = s.queues ∧ (demandAll s).lines = s.lines ∧
    (demandAll s).balances = s.balances ∧ (demandAll s).refillCount = s.refillCount ∧
    (demandAll s).periodInForce = s.periodInForce ∧ (demandAll s).urgent = s.urgent ∧
    (demandAll s).pointer = s.pointer ∧ (demandAll s).tags = s.tags ∧ (demandAll s).fences = s.fences ∧
    (demandAll s).fenceOrder = s.fenceOrder ∧ (demandAll s).faults = s.faults ∧
    (demandAll s).overflow = s.overflow ∧ (demandAll s).readout = s.readout ∧
    (demandAll s).responses = s.responses ∧ (demandAll s).staged = s.staged ∧ (demandAll s).active = s.active ∧
    (demandAll s).epoch = s.epoch ∧ (demandAll s).shortFrame = s.shortFrame ∧
    (demandAll s).timeBase = s.timeBase ∧ (demandAll s).causes = s.causes ∧ (demandAll s).counters = s.counters ∧
    (demandAll s).answer = s.answer ∧ (demandAll s).issued = s.issued ∧ (demandAll s).taken = s.taken ∧
    (demandAll s).mgmt = s.mgmt ∧ (demandAll s).pending = s.pending :=
  ⟨forEach_eq State.resetLine (fun t i => by simp) s, forEach_eq State.holdLine (fun t i => by simp) s, forEach_eq State.part (fun t i => by simp) s, forEach_eq State.tagTable (fun t i => by simp) s, forEach_eq State.refusals (fun t i => by simp) s, forEach_eq State.slots (fun t i => by simp) s, forEach_eq State.arrival (fun t i => by simp) s, forEach_eq State.queues (fun t i => by simp) s, forEach_eq State.lines (fun t i => by simp) s, forEach_eq State.balances (fun t i => by simp) s, forEach_eq State.refillCount (fun t i => by simp) s, forEach_eq State.periodInForce (fun t i => by simp) s, forEach_eq State.urgent (fun t i => by simp) s, forEach_eq State.pointer (fun t i => by simp) s, forEach_eq State.tags (fun t i => by simp) s, forEach_eq State.fences (fun t i => by simp) s, forEach_eq State.fenceOrder (fun t i => by simp) s, forEach_eq State.faults (fun t i => by simp) s, forEach_eq State.overflow (fun t i => by simp) s, forEach_eq State.readout (fun t i => by simp) s, forEach_eq State.responses (fun t i => by simp) s, forEach_eq State.staged (fun t i => by simp) s, forEach_eq State.active (fun t i => by simp) s, forEach_eq State.epoch (fun t i => by simp) s, forEach_eq State.shortFrame (fun t i => by simp) s, forEach_eq State.timeBase (fun t i => by simp) s, forEach_eq State.causes (fun t i => by simp) s, forEach_eq State.counters (fun t i => by simp) s, forEach_eq State.answer (fun t i => by simp) s, forEach_eq State.issued (fun t i => by simp) s, forEach_eq State.taken (fun t i => by simp) s, forEach_eq State.mgmt (fun t i => by simp) s, forEach_eq State.pending (fun t i => by simp) s⟩

@[simp] theorem drainPart_frame (s : State) :
    (drainPart s).resetLine = s.resetLine ∧ (drainPart s).holdLine = s.holdLine ∧
    (drainPart s).tagTable = s.tagTable ∧ (drainPart s).refusals = s.refusals ∧ (drainPart s).slots = s.slots ∧
    (drainPart s).arrival = s.arrival ∧ (drainPart s).queues = s.queues ∧ (drainPart s).lines = s.lines ∧
    (drainPart s).refillCount = s.refillCount ∧ (drainPart s).periodInForce = s.periodInForce ∧
    (drainPart s).urgent = s.urgent ∧ (drainPart s).tags = s.tags ∧ (drainPart s).fences = s.fences ∧
    (drainPart s).fenceOrder = s.fenceOrder ∧ (drainPart s).faults = s.faults ∧
    (drainPart s).overflow = s.overflow ∧ (drainPart s).readout = s.readout ∧
    (drainPart s).responses = s.responses ∧ (drainPart s).staged = s.staged ∧ (drainPart s).active = s.active ∧
    (drainPart s).epoch = s.epoch ∧ (drainPart s).shortFrame = s.shortFrame ∧
    (drainPart s).timeBase = s.timeBase ∧ (drainPart s).counters = s.counters ∧ (drainPart s).answer = s.answer ∧
    (drainPart s).issued = s.issued ∧ (drainPart s).taken = s.taken ∧ (drainPart s).pending = s.pending := by
  simp only [drainPart]
  repeat' split
  all_goals simp

@[simp] theorem resumePart_frame (s : State) :
    (resumePart s).resetLine = s.resetLine ∧ (resumePart s).holdLine = s.holdLine ∧
    (resumePart s).tagTable = s.tagTable ∧ (resumePart s).refusals = s.refusals ∧ (resumePart s).slots = s.slots ∧
    (resumePart s).arrival = s.arrival ∧ (resumePart s).queues = s.queues ∧ (resumePart s).lines = s.lines ∧
    (resumePart s).entries = s.entries ∧ (resumePart s).balances = s.balances ∧
    (resumePart s).refillCount = s.refillCount ∧ (resumePart s).periodInForce = s.periodInForce ∧
    (resumePart s).urgent = s.urgent ∧ (resumePart s).pointer = s.pointer ∧ (resumePart s).tags = s.tags ∧
    (resumePart s).fences = s.fences ∧ (resumePart s).fenceOrder = s.fenceOrder ∧
    (resumePart s).faults = s.faults ∧ (resumePart s).overflow = s.overflow ∧ (resumePart s).readout = s.readout ∧
    (resumePart s).responses = s.responses ∧ (resumePart s).staged = s.staged ∧ (resumePart s).active = s.active ∧
    (resumePart s).epoch = s.epoch ∧ (resumePart s).shortFrame = s.shortFrame ∧
    (resumePart s).timeBase = s.timeBase ∧ (resumePart s).causes = s.causes ∧
    (resumePart s).counters = s.counters ∧ (resumePart s).answer = s.answer ∧ (resumePart s).issued = s.issued ∧
    (resumePart s).taken = s.taken ∧ (resumePart s).pending = s.pending := by
  simp only [resumePart]
  repeat' split
  all_goals simp

@[simp] theorem restartSlots_frame (s : State) :
    (restartSlots s).resetLine = s.resetLine ∧ (restartSlots s).holdLine = s.holdLine ∧
    (restartSlots s).part = s.part ∧ (restartSlots s).tagTable = s.tagTable ∧
    (restartSlots s).refusals = s.refusals ∧ (restartSlots s).arrival = s.arrival ∧
    (restartSlots s).lines = s.lines ∧ (restartSlots s).balances = s.balances ∧
    (restartSlots s).refillCount = s.refillCount ∧ (restartSlots s).periodInForce = s.periodInForce ∧
    (restartSlots s).urgent = s.urgent ∧ (restartSlots s).pointer = s.pointer ∧ (restartSlots s).tags = s.tags ∧
    (restartSlots s).fences = s.fences ∧ (restartSlots s).fenceOrder = s.fenceOrder ∧
    (restartSlots s).faults = s.faults ∧ (restartSlots s).overflow = s.overflow ∧
    (restartSlots s).readout = s.readout ∧ (restartSlots s).responses = s.responses ∧
    (restartSlots s).staged = s.staged ∧ (restartSlots s).active = s.active ∧ (restartSlots s).epoch = s.epoch ∧
    (restartSlots s).shortFrame = s.shortFrame ∧ (restartSlots s).timeBase = s.timeBase ∧
    (restartSlots s).causes = s.causes ∧ (restartSlots s).counters = s.counters ∧
    (restartSlots s).answer = s.answer ∧ (restartSlots s).issued = s.issued ∧ (restartSlots s).taken = s.taken ∧
    (restartSlots s).mgmt = s.mgmt ∧ (restartSlots s).pending = s.pending := by
  simp [restartSlots]

@[simp] theorem discardEntry_frame (s : State) (e) :
    (discardEntry s e).resetLine = s.resetLine ∧ (discardEntry s e).holdLine = s.holdLine ∧
    (discardEntry s e).part = s.part ∧ (discardEntry s e).tagTable = s.tagTable ∧
    (discardEntry s e).refusals = s.refusals ∧ (discardEntry s e).slots = s.slots ∧
    (discardEntry s e).arrival = s.arrival ∧ (discardEntry s e).queues = s.queues ∧
    (discardEntry s e).balances = s.balances ∧ (discardEntry s e).refillCount = s.refillCount ∧
    (discardEntry s e).periodInForce = s.periodInForce ∧ (discardEntry s e).urgent = s.urgent ∧
    (discardEntry s e).pointer = s.pointer ∧ (discardEntry s e).tags = s.tags ∧
    (discardEntry s e).fenceOrder = s.fenceOrder ∧ (discardEntry s e).readout = s.readout ∧
    (discardEntry s e).responses = s.responses ∧ (discardEntry s e).staged = s.staged ∧
    (discardEntry s e).active = s.active ∧ (discardEntry s e).epoch = s.epoch ∧
    (discardEntry s e).shortFrame = s.shortFrame ∧ (discardEntry s e).timeBase = s.timeBase ∧
    (discardEntry s e).counters = s.counters ∧ (discardEntry s e).answer = s.answer ∧
    (discardEntry s e).issued = s.issued ∧ (discardEntry s e).taken = s.taken ∧ (discardEntry s e).mgmt = s.mgmt ∧
    (discardEntry s e).pending = s.pending := by
  simp only [discardEntry]
  repeat' split
  all_goals simp

@[simp] theorem discardAll_frame (s : State) :
    (discardAll s).resetLine = s.resetLine ∧ (discardAll s).holdLine = s.holdLine ∧ (discardAll s).part = s.part ∧
    (discardAll s).tagTable = s.tagTable ∧ (discardAll s).refusals = s.refusals ∧ (discardAll s).slots = s.slots ∧
    (discardAll s).arrival = s.arrival ∧ (discardAll s).queues = s.queues ∧ (discardAll s).balances = s.balances ∧
    (discardAll s).refillCount = s.refillCount ∧ (discardAll s).periodInForce = s.periodInForce ∧
    (discardAll s).urgent = s.urgent ∧ (discardAll s).pointer = s.pointer ∧ (discardAll s).tags = s.tags ∧
    (discardAll s).fenceOrder = s.fenceOrder ∧ (discardAll s).readout = s.readout ∧
    (discardAll s).responses = s.responses ∧ (discardAll s).staged = s.staged ∧ (discardAll s).active = s.active ∧
    (discardAll s).epoch = s.epoch ∧ (discardAll s).shortFrame = s.shortFrame ∧
    (discardAll s).timeBase = s.timeBase ∧ (discardAll s).counters = s.counters ∧
    (discardAll s).answer = s.answer ∧ (discardAll s).issued = s.issued ∧ (discardAll s).taken = s.taken ∧
    (discardAll s).mgmt = s.mgmt ∧ (discardAll s).pending = s.pending :=
  ⟨forEach_eq State.resetLine (fun t i => by simp) s, forEach_eq State.holdLine (fun t i => by simp) s, forEach_eq State.part (fun t i => by simp) s, forEach_eq State.tagTable (fun t i => by simp) s, forEach_eq State.refusals (fun t i => by simp) s, forEach_eq State.slots (fun t i => by simp) s, forEach_eq State.arrival (fun t i => by simp) s, forEach_eq State.queues (fun t i => by simp) s, forEach_eq State.balances (fun t i => by simp) s, forEach_eq State.refillCount (fun t i => by simp) s, forEach_eq State.periodInForce (fun t i => by simp) s, forEach_eq State.urgent (fun t i => by simp) s, forEach_eq State.pointer (fun t i => by simp) s, forEach_eq State.tags (fun t i => by simp) s, forEach_eq State.fenceOrder (fun t i => by simp) s, forEach_eq State.readout (fun t i => by simp) s, forEach_eq State.responses (fun t i => by simp) s, forEach_eq State.staged (fun t i => by simp) s, forEach_eq State.active (fun t i => by simp) s, forEach_eq State.epoch (fun t i => by simp) s, forEach_eq State.shortFrame (fun t i => by simp) s, forEach_eq State.timeBase (fun t i => by simp) s, forEach_eq State.counters (fun t i => by simp) s, forEach_eq State.answer (fun t i => by simp) s, forEach_eq State.issued (fun t i => by simp) s, forEach_eq State.taken (fun t i => by simp) s, forEach_eq State.mgmt (fun t i => by simp) s, forEach_eq State.pending (fun t i => by simp) s⟩

@[simp] theorem clearLines_frame (s : State) :
    (clearLines s).resetLine = s.resetLine ∧ (clearLines s).holdLine = s.holdLine ∧ (clearLines s).part = s.part ∧
    (clearLines s).tagTable = s.tagTable ∧ (clearLines s).refusals = s.refusals ∧ (clearLines s).slots = s.slots ∧
    (clearLines s).arrival = s.arrival ∧ (clearLines s).queues = s.queues ∧ (clearLines s).entries = s.entries ∧
    (clearLines s).balances = s.balances ∧ (clearLines s).refillCount = s.refillCount ∧
    (clearLines s).periodInForce = s.periodInForce ∧ (clearLines s).urgent = s.urgent ∧
    (clearLines s).pointer = s.pointer ∧ (clearLines s).tags = s.tags ∧ (clearLines s).fences = s.fences ∧
    (clearLines s).fenceOrder = s.fenceOrder ∧ (clearLines s).faults = s.faults ∧
    (clearLines s).overflow = s.overflow ∧ (clearLines s).readout = s.readout ∧
    (clearLines s).responses = s.responses ∧ (clearLines s).staged = s.staged ∧ (clearLines s).active = s.active ∧
    (clearLines s).epoch = s.epoch ∧ (clearLines s).shortFrame = s.shortFrame ∧
    (clearLines s).timeBase = s.timeBase ∧ (clearLines s).causes = s.causes ∧
    (clearLines s).counters = s.counters ∧ (clearLines s).answer = s.answer ∧ (clearLines s).issued = s.issued ∧
    (clearLines s).taken = s.taken ∧ (clearLines s).mgmt = s.mgmt ∧ (clearLines s).pending = s.pending := by
  simp [clearLines]

@[simp] theorem clearUrgency_frame (s : State) :
    (clearUrgency s).resetLine = s.resetLine ∧ (clearUrgency s).holdLine = s.holdLine ∧
    (clearUrgency s).part = s.part ∧ (clearUrgency s).tagTable = s.tagTable ∧
    (clearUrgency s).refusals = s.refusals ∧ (clearUrgency s).slots = s.slots ∧
    (clearUrgency s).arrival = s.arrival ∧ (clearUrgency s).queues = s.queues ∧ (clearUrgency s).lines = s.lines ∧
    (clearUrgency s).entries = s.entries ∧ (clearUrgency s).balances = s.balances ∧
    (clearUrgency s).refillCount = s.refillCount ∧ (clearUrgency s).periodInForce = s.periodInForce ∧
    (clearUrgency s).pointer = s.pointer ∧ (clearUrgency s).tags = s.tags ∧ (clearUrgency s).fences = s.fences ∧
    (clearUrgency s).fenceOrder = s.fenceOrder ∧ (clearUrgency s).faults = s.faults ∧
    (clearUrgency s).overflow = s.overflow ∧ (clearUrgency s).readout = s.readout ∧
    (clearUrgency s).responses = s.responses ∧ (clearUrgency s).staged = s.staged ∧
    (clearUrgency s).active = s.active ∧ (clearUrgency s).epoch = s.epoch ∧
    (clearUrgency s).shortFrame = s.shortFrame ∧ (clearUrgency s).timeBase = s.timeBase ∧
    (clearUrgency s).causes = s.causes ∧ (clearUrgency s).counters = s.counters ∧
    (clearUrgency s).answer = s.answer ∧ (clearUrgency s).issued = s.issued ∧ (clearUrgency s).taken = s.taken ∧
    (clearUrgency s).mgmt = s.mgmt ∧ (clearUrgency s).pending = s.pending := by
  simp [clearUrgency]

@[simp] theorem restartNow_frame (s : State) :
    (restartNow s).resetLine = s.resetLine ∧ (restartNow s).holdLine = s.holdLine ∧
    (restartNow s).tagTable = s.tagTable ∧ (restartNow s).refusals = s.refusals ∧
    (restartNow s).arrival = s.arrival ∧ (restartNow s).refillCount = s.refillCount ∧
    (restartNow s).periodInForce = s.periodInForce ∧ (restartNow s).tags = s.tags ∧
    (restartNow s).fenceOrder = s.fenceOrder ∧ (restartNow s).readout = s.readout ∧
    (restartNow s).staged = s.staged ∧ (restartNow s).active = s.active ∧ (restartNow s).epoch = s.epoch ∧
    (restartNow s).shortFrame = s.shortFrame ∧ (restartNow s).timeBase = s.timeBase ∧
    (restartNow s).counters = s.counters ∧ (restartNow s).answer = s.answer ∧ (restartNow s).issued = s.issued ∧
    (restartNow s).taken = s.taken ∧ (restartNow s).mgmt = s.mgmt ∧ (restartNow s).pending = s.pending := by
  simp [restartNow]

@[simp] theorem restartPart_frame (s : State) :
    (restartPart s).resetLine = s.resetLine ∧ (restartPart s).holdLine = s.holdLine ∧
    (restartPart s).tagTable = s.tagTable ∧ (restartPart s).refusals = s.refusals ∧
    (restartPart s).arrival = s.arrival ∧ (restartPart s).refillCount = s.refillCount ∧
    (restartPart s).periodInForce = s.periodInForce ∧ (restartPart s).tags = s.tags ∧
    (restartPart s).fenceOrder = s.fenceOrder ∧ (restartPart s).readout = s.readout ∧
    (restartPart s).staged = s.staged ∧ (restartPart s).active = s.active ∧ (restartPart s).epoch = s.epoch ∧
    (restartPart s).shortFrame = s.shortFrame ∧ (restartPart s).timeBase = s.timeBase ∧
    (restartPart s).counters = s.counters ∧ (restartPart s).answer = s.answer ∧
    (restartPart s).issued = s.issued ∧ (restartPart s).taken = s.taken ∧ (restartPart s).pending = s.pending := by
  simp only [restartPart]
  repeat' split
  all_goals simp

@[simp] theorem afterRead_frame (s : State) (it) :
    (afterRead s it).resetLine = s.resetLine ∧ (afterRead s it).holdLine = s.holdLine ∧
    (afterRead s it).part = s.part ∧ (afterRead s it).tagTable = s.tagTable ∧
    (afterRead s it).refusals = s.refusals ∧ (afterRead s it).slots = s.slots ∧
    (afterRead s it).arrival = s.arrival ∧ (afterRead s it).queues = s.queues ∧ (afterRead s it).lines = s.lines ∧
    (afterRead s it).entries = s.entries ∧ (afterRead s it).balances = s.balances ∧
    (afterRead s it).refillCount = s.refillCount ∧ (afterRead s it).periodInForce = s.periodInForce ∧
    (afterRead s it).urgent = s.urgent ∧ (afterRead s it).pointer = s.pointer ∧ (afterRead s it).tags = s.tags ∧
    (afterRead s it).fences = s.fences ∧ (afterRead s it).fenceOrder = s.fenceOrder ∧
    (afterRead s it).faults = s.faults ∧ (afterRead s it).overflow = s.overflow ∧
    (afterRead s it).readout = s.readout ∧ (afterRead s it).responses = s.responses ∧
    (afterRead s it).staged = s.staged ∧ (afterRead s it).active = s.active ∧ (afterRead s it).epoch = s.epoch ∧
    (afterRead s it).timeBase = s.timeBase ∧ (afterRead s it).causes = s.causes ∧
    (afterRead s it).counters = s.counters ∧ (afterRead s it).answer = s.answer ∧
    (afterRead s it).issued = s.issued ∧ (afterRead s it).taken = s.taken ∧ (afterRead s it).mgmt = s.mgmt ∧
    (afterRead s it).pending = s.pending := by
  simp only [afterRead]
  repeat' split
  all_goals simp

@[simp] theorem readAnswered_frame (s : State) (it) :
    (readAnswered s it).resetLine = s.resetLine ∧ (readAnswered s it).holdLine = s.holdLine ∧
    (readAnswered s it).part = s.part ∧ (readAnswered s it).tagTable = s.tagTable ∧
    (readAnswered s it).refusals = s.refusals ∧ (readAnswered s it).slots = s.slots ∧
    (readAnswered s it).arrival = s.arrival ∧ (readAnswered s it).queues = s.queues ∧
    (readAnswered s it).lines = s.lines ∧ (readAnswered s it).entries = s.entries ∧
    (readAnswered s it).balances = s.balances ∧ (readAnswered s it).refillCount = s.refillCount ∧
    (readAnswered s it).periodInForce = s.periodInForce ∧ (readAnswered s it).urgent = s.urgent ∧
    (readAnswered s it).pointer = s.pointer ∧ (readAnswered s it).tags = s.tags ∧
    (readAnswered s it).fences = s.fences ∧ (readAnswered s it).fenceOrder = s.fenceOrder ∧
    (readAnswered s it).faults = s.faults ∧ (readAnswered s it).overflow = s.overflow ∧
    (readAnswered s it).readout = s.readout ∧ (readAnswered s it).responses = s.responses ∧
    (readAnswered s it).staged = s.staged ∧ (readAnswered s it).active = s.active ∧
    (readAnswered s it).epoch = s.epoch ∧ (readAnswered s it).timeBase = s.timeBase ∧
    (readAnswered s it).causes = s.causes ∧ (readAnswered s it).counters = s.counters ∧
    (readAnswered s it).answer = s.answer ∧ (readAnswered s it).issued = s.issued ∧
    (readAnswered s it).taken = s.taken ∧ (readAnswered s it).pending = s.pending := by
  simp [readAnswered]

@[simp] theorem readItem_frame (s : State) (n) :
    (readItem s n).resetLine = s.resetLine ∧ (readItem s n).holdLine = s.holdLine ∧ (readItem s n).part = s.part ∧
    (readItem s n).tagTable = s.tagTable ∧ (readItem s n).refusals = s.refusals ∧ (readItem s n).slots = s.slots ∧
    (readItem s n).arrival = s.arrival ∧ (readItem s n).queues = s.queues ∧ (readItem s n).lines = s.lines ∧
    (readItem s n).entries = s.entries ∧ (readItem s n).balances = s.balances ∧
    (readItem s n).refillCount = s.refillCount ∧ (readItem s n).periodInForce = s.periodInForce ∧
    (readItem s n).urgent = s.urgent ∧ (readItem s n).pointer = s.pointer ∧ (readItem s n).tags = s.tags ∧
    (readItem s n).fences = s.fences ∧ (readItem s n).fenceOrder = s.fenceOrder ∧
    (readItem s n).faults = s.faults ∧ (readItem s n).overflow = s.overflow ∧ (readItem s n).readout = s.readout ∧
    (readItem s n).responses = s.responses ∧ (readItem s n).staged = s.staged ∧ (readItem s n).active = s.active ∧
    (readItem s n).epoch = s.epoch ∧ (readItem s n).timeBase = s.timeBase ∧ (readItem s n).causes = s.causes ∧
    (readItem s n).counters = s.counters ∧ (readItem s n).answer = s.answer ∧ (readItem s n).issued = s.issued ∧
    (readItem s n).taken = s.taken ∧ (readItem s n).pending = s.pending := by
  simp only [readItem]
  repeat' split
  all_goals simp

@[simp] theorem writeItem_frame (s : State) (n v) :
    (writeItem s n v).resetLine = s.resetLine ∧ (writeItem s n v).holdLine = s.holdLine ∧
    (writeItem s n v).part = s.part ∧ (writeItem s n v).tagTable = s.tagTable ∧
    (writeItem s n v).refusals = s.refusals ∧ (writeItem s n v).slots = s.slots ∧
    (writeItem s n v).arrival = s.arrival ∧ (writeItem s n v).queues = s.queues ∧
    (writeItem s n v).lines = s.lines ∧ (writeItem s n v).entries = s.entries ∧
    (writeItem s n v).balances = s.balances ∧ (writeItem s n v).refillCount = s.refillCount ∧
    (writeItem s n v).periodInForce = s.periodInForce ∧ (writeItem s n v).urgent = s.urgent ∧
    (writeItem s n v).pointer = s.pointer ∧ (writeItem s n v).tags = s.tags ∧
    (writeItem s n v).fences = s.fences ∧ (writeItem s n v).fenceOrder = s.fenceOrder ∧
    (writeItem s n v).faults = s.faults ∧ (writeItem s n v).overflow = s.overflow ∧
    (writeItem s n v).readout = s.readout ∧ (writeItem s n v).responses = s.responses ∧
    (writeItem s n v).active = s.active ∧ (writeItem s n v).epoch = s.epoch ∧
    (writeItem s n v).shortFrame = s.shortFrame ∧ (writeItem s n v).timeBase = s.timeBase ∧
    (writeItem s n v).causes = s.causes ∧ (writeItem s n v).counters = s.counters ∧
    (writeItem s n v).answer = s.answer ∧ (writeItem s n v).issued = s.issued ∧
    (writeItem s n v).taken = s.taken ∧ (writeItem s n v).pending = s.pending := by
  simp only [writeItem]
  repeat' split
  all_goals simp

@[simp] theorem statusCommand_frame (s : State) (n) :
    (statusCommand s n).resetLine = s.resetLine ∧ (statusCommand s n).holdLine = s.holdLine ∧
    (statusCommand s n).part = s.part ∧ (statusCommand s n).tagTable = s.tagTable ∧
    (statusCommand s n).refusals = s.refusals ∧ (statusCommand s n).slots = s.slots ∧
    (statusCommand s n).arrival = s.arrival ∧ (statusCommand s n).queues = s.queues ∧
    (statusCommand s n).lines = s.lines ∧ (statusCommand s n).entries = s.entries ∧
    (statusCommand s n).balances = s.balances ∧ (statusCommand s n).refillCount = s.refillCount ∧
    (statusCommand s n).periodInForce = s.periodInForce ∧ (statusCommand s n).urgent = s.urgent ∧
    (statusCommand s n).pointer = s.pointer ∧ (statusCommand s n).tags = s.tags ∧
    (statusCommand s n).fences = s.fences ∧ (statusCommand s n).fenceOrder = s.fenceOrder ∧
    (statusCommand s n).faults = s.faults ∧ (statusCommand s n).overflow = s.overflow ∧
    (statusCommand s n).readout = s.readout ∧ (statusCommand s n).responses = s.responses ∧
    (statusCommand s n).staged = s.staged ∧ (statusCommand s n).active = s.active ∧
    (statusCommand s n).epoch = s.epoch ∧ (statusCommand s n).timeBase = s.timeBase ∧
    (statusCommand s n).causes = s.causes ∧ (statusCommand s n).counters = s.counters ∧
    (statusCommand s n).answer = s.answer ∧ (statusCommand s n).issued = s.issued ∧
    (statusCommand s n).taken = s.taken ∧ (statusCommand s n).pending = s.pending := by
  simp only [statusCommand]
  repeat' split
  all_goals simp

@[simp] theorem adoptStaged_frame (s : State) :
    (adoptStaged s).resetLine = s.resetLine ∧ (adoptStaged s).holdLine = s.holdLine ∧
    (adoptStaged s).part = s.part ∧ (adoptStaged s).tagTable = s.tagTable ∧
    (adoptStaged s).refusals = s.refusals ∧ (adoptStaged s).slots = s.slots ∧
    (adoptStaged s).arrival = s.arrival ∧ (adoptStaged s).queues = s.queues ∧ (adoptStaged s).lines = s.lines ∧
    (adoptStaged s).entries = s.entries ∧ (adoptStaged s).balances = s.balances ∧
    (adoptStaged s).refillCount = s.refillCount ∧ (adoptStaged s).periodInForce = s.periodInForce ∧
    (adoptStaged s).urgent = s.urgent ∧ (adoptStaged s).pointer = s.pointer ∧ (adoptStaged s).tags = s.tags ∧
    (adoptStaged s).fences = s.fences ∧ (adoptStaged s).fenceOrder = s.fenceOrder ∧
    (adoptStaged s).faults = s.faults ∧ (adoptStaged s).overflow = s.overflow ∧
    (adoptStaged s).readout = s.readout ∧ (adoptStaged s).responses = s.responses ∧
    (adoptStaged s).staged = s.staged ∧ (adoptStaged s).shortFrame = s.shortFrame ∧
    (adoptStaged s).timeBase = s.timeBase ∧ (adoptStaged s).causes = s.causes ∧
    (adoptStaged s).counters = s.counters ∧ (adoptStaged s).answer = s.answer ∧
    (adoptStaged s).issued = s.issued ∧ (adoptStaged s).taken = s.taken ∧ (adoptStaged s).mgmt = s.mgmt ∧
    (adoptStaged s).pending = s.pending := by
  simp [adoptStaged]

@[simp] theorem clampBalances_frame (s : State) :
    (clampBalances s).resetLine = s.resetLine ∧ (clampBalances s).holdLine = s.holdLine ∧
    (clampBalances s).part = s.part ∧ (clampBalances s).tagTable = s.tagTable ∧
    (clampBalances s).refusals = s.refusals ∧ (clampBalances s).slots = s.slots ∧
    (clampBalances s).arrival = s.arrival ∧ (clampBalances s).queues = s.queues ∧
    (clampBalances s).lines = s.lines ∧ (clampBalances s).entries = s.entries ∧
    (clampBalances s).refillCount = s.refillCount ∧ (clampBalances s).periodInForce = s.periodInForce ∧
    (clampBalances s).urgent = s.urgent ∧ (clampBalances s).pointer = s.pointer ∧
    (clampBalances s).tags = s.tags ∧ (clampBalances s).fences = s.fences ∧
    (clampBalances s).fenceOrder = s.fenceOrder ∧ (clampBalances s).faults = s.faults ∧
    (clampBalances s).overflow = s.overflow ∧ (clampBalances s).readout = s.readout ∧
    (clampBalances s).responses = s.responses ∧ (clampBalances s).staged = s.staged ∧
    (clampBalances s).active = s.active ∧ (clampBalances s).epoch = s.epoch ∧
    (clampBalances s).shortFrame = s.shortFrame ∧ (clampBalances s).timeBase = s.timeBase ∧
    (clampBalances s).causes = s.causes ∧ (clampBalances s).counters = s.counters ∧
    (clampBalances s).answer = s.answer ∧ (clampBalances s).issued = s.issued ∧
    (clampBalances s).taken = s.taken ∧ (clampBalances s).mgmt = s.mgmt ∧ (clampBalances s).pending = s.pending := by
  simp [clampBalances]

@[simp] theorem commitStaged_frame (s : State) :
    (commitStaged s).resetLine = s.resetLine ∧ (commitStaged s).holdLine = s.holdLine ∧
    (commitStaged s).tagTable = s.tagTable ∧ (commitStaged s).refusals = s.refusals ∧
    (commitStaged s).queues = s.queues ∧ (commitStaged s).refillCount = s.refillCount ∧
    (commitStaged s).periodInForce = s.periodInForce ∧ (commitStaged s).fenceOrder = s.fenceOrder ∧
    (commitStaged s).readout = s.readout ∧ (commitStaged s).staged = s.staged ∧
    (commitStaged s).shortFrame = s.shortFrame ∧ (commitStaged s).timeBase = s.timeBase ∧
    (commitStaged s).answer = s.answer ∧ (commitStaged s).issued = s.issued ∧ (commitStaged s).taken = s.taken ∧
    (commitStaged s).mgmt = s.mgmt ∧ (commitStaged s).pending = s.pending := by
  simp [commitStaged]

@[simp] theorem validateAndCommit_frame (s : State) :
    (validateAndCommit s).resetLine = s.resetLine ∧ (validateAndCommit s).holdLine = s.holdLine ∧
    (validateAndCommit s).tagTable = s.tagTable ∧ (validateAndCommit s).refusals = s.refusals ∧
    (validateAndCommit s).queues = s.queues ∧ (validateAndCommit s).refillCount = s.refillCount ∧
    (validateAndCommit s).periodInForce = s.periodInForce ∧ (validateAndCommit s).fenceOrder = s.fenceOrder ∧
    (validateAndCommit s).readout = s.readout ∧ (validateAndCommit s).staged = s.staged ∧
    (validateAndCommit s).shortFrame = s.shortFrame ∧ (validateAndCommit s).timeBase = s.timeBase ∧
    (validateAndCommit s).answer = s.answer ∧ (validateAndCommit s).issued = s.issued ∧
    (validateAndCommit s).taken = s.taken ∧ (validateAndCommit s).pending = s.pending := by
  simp only [validateAndCommit]
  repeat' split
  all_goals simp

@[simp] theorem commitPart_frame (s : State) :
    (commitPart s).resetLine = s.resetLine ∧ (commitPart s).holdLine = s.holdLine ∧
    (commitPart s).tagTable = s.tagTable ∧ (commitPart s).refusals = s.refusals ∧
    (commitPart s).queues = s.queues ∧ (commitPart s).refillCount = s.refillCount ∧
    (commitPart s).periodInForce = s.periodInForce ∧ (commitPart s).fenceOrder = s.fenceOrder ∧
    (commitPart s).readout = s.readout ∧ (commitPart s).staged = s.staged ∧
    (commitPart s).shortFrame = s.shortFrame ∧ (commitPart s).timeBase = s.timeBase ∧
    (commitPart s).answer = s.answer ∧ (commitPart s).issued = s.issued ∧ (commitPart s).taken = s.taken ∧
    (commitPart s).pending = s.pending := by
  simp only [commitPart]
  repeat' split
  all_goals simp

@[simp] theorem takeFault_frame (s : State) :
    (takeFault s).resetLine = s.resetLine ∧ (takeFault s).holdLine = s.holdLine ∧ (takeFault s).part = s.part ∧
    (takeFault s).tagTable = s.tagTable ∧ (takeFault s).refusals = s.refusals ∧ (takeFault s).slots = s.slots ∧
    (takeFault s).arrival = s.arrival ∧ (takeFault s).queues = s.queues ∧ (takeFault s).lines = s.lines ∧
    (takeFault s).entries = s.entries ∧ (takeFault s).balances = s.balances ∧
    (takeFault s).refillCount = s.refillCount ∧ (takeFault s).periodInForce = s.periodInForce ∧
    (takeFault s).urgent = s.urgent ∧ (takeFault s).pointer = s.pointer ∧ (takeFault s).tags = s.tags ∧
    (takeFault s).fences = s.fences ∧ (takeFault s).fenceOrder = s.fenceOrder ∧
    (takeFault s).responses = s.responses ∧ (takeFault s).staged = s.staged ∧ (takeFault s).active = s.active ∧
    (takeFault s).epoch = s.epoch ∧ (takeFault s).shortFrame = s.shortFrame ∧
    (takeFault s).timeBase = s.timeBase ∧ (takeFault s).causes = s.causes ∧ (takeFault s).counters = s.counters ∧
    (takeFault s).answer = s.answer ∧ (takeFault s).issued = s.issued ∧ (takeFault s).taken = s.taken ∧
    (takeFault s).pending = s.pending := by
  simp only [takeFault]
  repeat' split
  all_goals simp

@[simp] theorem ackAlert_frame (s : State) (v) :
    (ackAlert s v).resetLine = s.resetLine ∧ (ackAlert s v).holdLine = s.holdLine ∧ (ackAlert s v).part = s.part ∧
    (ackAlert s v).tagTable = s.tagTable ∧ (ackAlert s v).refusals = s.refusals ∧ (ackAlert s v).slots = s.slots ∧
    (ackAlert s v).arrival = s.arrival ∧ (ackAlert s v).queues = s.queues ∧ (ackAlert s v).lines = s.lines ∧
    (ackAlert s v).entries = s.entries ∧ (ackAlert s v).balances = s.balances ∧
    (ackAlert s v).refillCount = s.refillCount ∧ (ackAlert s v).periodInForce = s.periodInForce ∧
    (ackAlert s v).urgent = s.urgent ∧ (ackAlert s v).pointer = s.pointer ∧ (ackAlert s v).tags = s.tags ∧
    (ackAlert s v).fences = s.fences ∧ (ackAlert s v).fenceOrder = s.fenceOrder ∧
    (ackAlert s v).faults = s.faults ∧ (ackAlert s v).overflow = s.overflow ∧ (ackAlert s v).readout = s.readout ∧
    (ackAlert s v).responses = s.responses ∧ (ackAlert s v).staged = s.staged ∧ (ackAlert s v).active = s.active ∧
    (ackAlert s v).epoch = s.epoch ∧ (ackAlert s v).shortFrame = s.shortFrame ∧
    (ackAlert s v).timeBase = s.timeBase ∧ (ackAlert s v).counters = s.counters ∧
    (ackAlert s v).answer = s.answer ∧ (ackAlert s v).issued = s.issued ∧ (ackAlert s v).taken = s.taken ∧
    (ackAlert s v).pending = s.pending := by
  simp [ackAlert]

end Sys2Proof.Machine
end

