-- ==== Sys2Proof/Laws/Ops.lean ====
section
/-! SUPPORT. What each shared operation does, said once. A statement's proof cites these with the frames of
Laws/Frames.lean in place of unfolding the operation. -/

namespace Sys2Proof.Machine

/-! ## Outcomes -/

theorem unlessReset_released {s : State} (h : s.resetLine = false) (t : State) : unlessReset s t = .next t := by
  simp [unlessReset, h]

theorem unlessReset_asserted {s : State} (h : s.resetLine = true) (t : State) : unlessReset s t = .next s := by
  simp [unlessReset, h]

/-- A command under `unlessReset` always answers a next state, one of two. -/
theorem unlessReset_cases {s t u : State} (h : unlessReset s t = .next u) :
    (s.resetLine = true ∧ u = s) ∨ (s.resetLine = false ∧ u = t) := by
  unfold unlessReset at h
  split at h <;> cases h
  · exact .inl ⟨‹_›, rfl⟩
  · exact .inr ⟨by simpa using ‹¬ s.resetLine = true›, rfl⟩

/-! ## Lane sets and data areas -/

@[simp] theorem get_lanesUnion (a b : LaneMask) (l : Nat) (h : l < 64) : (lanesUnion a b)[l] = (a[l] || b[l]) := by
  simp [lanesUnion]

@[simp] theorem get_overlay (m : LaneMask) (x y : LineData) (l : Nat) (h : l < 64) :
    (overlay m x y)[l] = if m[l] then x[l] else y[l] := by
  simp [overlay]

@[simp] theorem get_keepLanes (m : LaneMask) (x : LineData) (l : Nat) (h : l < 64) :
    (keepLanes m x)[l] = if m[l] then x[l] else 0 := by
  simp [keepLanes, zeroLine]

@[simp] theorem get_laneRange (o : Lane) (n : Nat) (l : Nat) (h : l < 64) :
    (laneRange o n)[l] = decide (o.val ≤ l ∧ l < o.val + n) := by
  simp only [laneRange, get_tabulate_val, Bool.decide_and]

@[simp] theorem get_allLanes (l : Nat) (h : l < 64) : allLanes[l] = true := by simp [allLanes]

@[simp] theorem get_noLanes (l : Nat) (h : l < 64) : noLanes[l] = false := by simp [noLanes]

theorem lanesFull_iff {m : LaneMask} : lanesFull m = true ↔ ∀ l : Lane, m[l] = true := allOf_iff

theorem lanesAny_iff {m : LaneMask} : lanesAny m = true ↔ ∃ l : Lane, m[l] = true := anyOf_iff

theorem lanesWithin_iff {a b : LaneMask} : lanesWithin a b = true ↔ ∀ l : Lane, a[l] = true → b[l] = true := by
  unfold lanesWithin
  rw [allOf_iff]
  exact forall_congr' fun l => by cases a[l] <;> simp

/-! ## Counters (R201) -/

@[simp] theorem satAdd_zero (c : Word) : satAdd c 0 = c := by
  apply BitVec.eq_of_toNat_eq
  have := c.isLt
  simp only [satAdd, BitVec.toNat_ofNat]
  omega

theorem satAdd_toNat (c : Word) (n : Nat) : (satAdd c n).toNat = min (c.toNat + n) (2 ^ 32 - 1) := by
  simp only [satAdd, BitVec.toNat_ofNat]
  omega

/-- Two raises are one raise by their sum. -/
theorem satAdd_satAdd (c : Word) (m n : Nat) : satAdd (satAdd c m) n = satAdd c (m + n) := by
  apply BitVec.eq_of_toNat_eq
  simp only [satAdd_toNat]
  omega

/-- The counters after a change of one class's. -/
theorem countClass_counters (s : State) (k : ClassId) (f : ClassCounters → ClassCounters) :
    (countClass s k f).counters = { s.counters with perClass := put s.counters.perClass k (f s.counters.perClass[k]) } :=
  rfl

/-! ## Fences and wait sets (R151, R152) -/

/-- A record with an empty wait set completes; any other stays. -/
theorem settleFence_spec (f : FenceRecord) :
    ((f.waitSlots = [] ∧ f.waitFences = [] ∧ f.waitEntries = []) →
      settleFence f = { f with state := .completed, status := some (if f.faulted then .fenceFaulted else .ok) }) ∧
    (¬ (f.waitSlots = [] ∧ f.waitFences = [] ∧ f.waitEntries = []) → settleFence f = f) := by
  simp only [settleFence, List.isEmpty_iff, Bool.and_eq_true, and_assoc]
  exact ⟨fun h => if_pos h, fun h => if_neg h⟩

theorem dropSlot_spec (i : SlotId) (f : FenceRecord) :
    (f.state = .waiting → i ∈ f.waitSlots → dropSlot i f = settleFence { f with waitSlots := without i f.waitSlots }) ∧
    (¬ (f.state = .waiting ∧ i ∈ f.waitSlots) → dropSlot i f = f) := by
  simp only [dropSlot, List.contains_iff_mem, beq_iff_eq, Bool.and_eq_true]
  exact ⟨fun h k => if_pos ⟨h, k⟩, fun h => if_neg h⟩

theorem dropFence_spec (i : FenceId) (f : FenceRecord) :
    (f.state = .waiting → i ∈ f.waitFences →
      dropFence i f = settleFence { f with waitFences := without i f.waitFences }) ∧
    (¬ (f.state = .waiting ∧ i ∈ f.waitFences) → dropFence i f = f) := by
  simp only [dropFence, List.contains_iff_mem, beq_iff_eq, Bool.and_eq_true]
  exact ⟨fun h k => if_pos ⟨h, k⟩, fun h => if_neg h⟩

theorem dropEntry_spec (i : EntryId) (f : FenceRecord) :
    (f.state = .waiting → i ∈ f.waitEntries →
      dropEntry i f = settleFence { f with waitEntries := without i f.waitEntries }) ∧
    (¬ (f.state = .waiting ∧ i ∈ f.waitEntries) → dropEntry i f = f) := by
  simp only [dropEntry, List.contains_iff_mem, beq_iff_eq, Bool.and_eq_true]
  exact ⟨fun h k => if_pos ⟨h, k⟩, fun h => if_neg h⟩

/-- A change of every record changes each by the same function. -/
@[simp] theorem get_mapFences (s : State) (f : FenceRecord → FenceRecord) (k : Nat) (h : k < 8) :
    (mapFences s f).fences[k] = f s.fences[k] := by
  simp [mapFences]

/-- What a slot's becoming FREE changes (R42). -/
theorem freeSlot_spec (s : State) (i : SlotId) :
    (freeSlot s i).slots = put s.slots i { s.slots[i] with state := .free } ∧
    (freeSlot s i).arrival = without i s.arrival ∧
    ∀ k : FenceId, (freeSlot s i).fences[k] = dropSlot i s.fences[k] := by
  simp [freeSlot, departSlot, setSlot]

/-! ## The Deferred Fault List (R157) -/

theorem handRecord_room {s : State} (r : FaultRecord) (h : s.faults.length < 8) :
    handRecord s r = { s with faults := s.faults ++ [r], causes := { s.causes with faultRecorded := true } } :=
  if_pos h

theorem handRecord_full {s : State} (r : FaultRecord) (h : 8 ≤ s.faults.length) :
    handRecord s r =
      { s with overflow := min (s.overflow + 1) 65535, causes := { s.causes with faultOverflow := true } } :=
  if_neg (Nat.not_lt.2 h)

/-! ## The Line Order Table (R57 to R59, R72) -/

/-- A change of one line's entry that keeps its line: other lines stay, this one's entry changes. -/
theorem findLine_updateLine (s : State) (a b : LineAddr) {f : LineEntry → LineEntry} (hf : ∀ l, (f l).line = l.line) :
    findLine (updateLine s a f) b = if b = a then (findLine s a).map f else findLine s b := by
  simp only [findLine, updateLine, setLines_lines]
  induction s.lines with
  | nil => simp
  | cons l ls ih =>
    have hl : (if l.line == a then f l else l).line = l.line := by split <;> simp [hf]
    simp only [List.map_cons, List.find?_cons, hl, ih]
    by_cases hb : l.line = b
    · subst hb
      by_cases ha : l.line = a <;> simp [ha]
    · by_cases ha : b = a
      · subst ha; simp [beq_false_of_ne hb]
      · simp [beq_false_of_ne hb, ha]

/-- A slot that leaves a line's list: the list without it, the reference and the other lines as they stand. -/
theorem leaveLine_spec (s : State) (a : LineAddr) (i : SlotId) :
    lineList (leaveLine s a i) a = without i (lineList s a) ∧ mergeRef (leaveLine s a i) a = mergeRef s a ∧
    ∀ b, b ≠ a → findLine (leaveLine s a i) b = findLine s b := by
  have h (b) : findLine (leaveLine s a i) b = _ := findLine_updateLine s a b (by intro l; rfl)
  refine ⟨?_, ?_, fun b hb => by rw [h, if_neg hb]⟩
  · rw [lineList, lineList, h, if_pos rfl]
    cases findLine s a <;> rfl
  · rw [mergeRef, mergeRef, h, if_pos rfl]
    cases findLine s a <;> rfl

/-- A line's reference set: its list and the other lines stay, and the reference is the one given where the line has an
entry. -/
theorem setMergeRef_spec (s : State) (a : LineAddr) (r : Option EntryId) :
    lineList (setMergeRef s a r) a = lineList s a ∧
    mergeRef (setMergeRef s a r) a = (findLine s a).bind (fun _ => r) ∧
    ∀ b, b ≠ a → findLine (setMergeRef s a r) b = findLine s b := by
  have h (b) : findLine (setMergeRef s a r) b = _ := findLine_updateLine s a b (by intro l; rfl)
  refine ⟨?_, ?_, fun b hb => by rw [h, if_neg hb]⟩
  · rw [lineList, lineList, h, if_pos rfl]
    cases findLine s a <;> rfl
  · rw [mergeRef, h, if_pos rfl]
    cases findLine s a <;> rfl

/-- A slot that joins a line: it stands at the back of the list, and the reference and the other lines stay. -/
theorem joinLine_spec (s : State) (a : LineAddr) (i : SlotId) :
    lineList (joinLine s a i) a = lineList s a ++ [i] ∧ mergeRef (joinLine s a i) a = mergeRef s a ∧
    ∀ b, b ≠ a → findLine (joinLine s a i) b = findLine s b := by
  unfold joinLine
  split
  · next x hx =>
    have h (b) : findLine (updateLine s a fun l => { l with list := l.list ++ [i] }) b = _ :=
      findLine_updateLine s a b (by intro l; rfl)
    refine ⟨?_, ?_, fun b hb => by rw [h, if_neg hb]⟩
    · rw [lineList, lineList, h, if_pos rfl, hx]; rfl
    · rw [mergeRef, mergeRef, h, if_pos rfl, hx]; rfl
  · next hx =>
    simp only [findLine] at hx
    refine ⟨?_, ?_, fun b hb => ?_⟩
    · simp [lineList, findLine, List.find?_append, hx]
    · simp [mergeRef, findLine, List.find?_append, hx]
    · simp [findLine, List.find?_append, show ¬ a = b from fun h => hb h.symm]

/-- The removal of a line's idle entry leaves the other lines as they stand. -/
theorem findLine_tidyLine_ne (s : State) {a b : LineAddr} (h : b ≠ a) : findLine (tidyLine s a) b = findLine s b := by
  simp only [findLine, tidyLine, setLines_lines, List.find?_filter]
  congr 1
  funext l
  by_cases hb : l.line = b
  · simp [hb, h]
  · simp [hb]

/-! ## Drain reasons (R91) -/

/-- What adding a reason does to an entry that takes one. -/
theorem withReason_live {m : MergeEntry} (h : entryLive m = true) (r : Reason) (now : Time) :
    withReason m r now = { m with
      state := .drainPending, reasons := addTo allReasons r m.reasons
      demandTime := if demanded r && m.demandTime.isNone then some now else m.demandTime } :=
  if_pos h

/-- An entry that takes no reason stays. -/
theorem withReason_other {m : MergeEntry} (h : entryLive m = false) (r : Reason) (now : Time) :
    withReason m r now = m :=
  if_neg (by simp [h])

theorem mem_withReason {m : MergeEntry} (h : entryLive m = true) (r x : Reason) (now : Time) :
    x ∈ (withReason m r now).reasons ↔ x = r ∨ x ∈ m.reasons := by
  rw [withReason_live h]
  exact mem_addTo (by cases x <;> simp [allReasons])

/-- Adding a reason reaches neither the line, the data, the lanes, the contributors nor the rest of the entry. -/
theorem withReason_frame (m : MergeEntry) (r : Reason) (now : Time) :
    withReason m r now = { m with
      state := (withReason m r now).state, reasons := (withReason m r now).reasons
      demandTime := (withReason m r now).demandTime } := by
  unfold withReason
  split <;> rfl

@[simp] theorem addReason_entries (s : State) (e : EntryId) (r : Reason) :
    (addReason s e r).entries = put s.entries e (withReason s.entries[e] r s.timeBase) := rfl

theorem entryLive_iff {m : MergeEntry} : entryLive m = true ↔ m.state = .opened ∨ m.state = .drainPending := by
  simp [entryLive]

/-! ## The arbiter's age order (R114) -/

/-- The entry with the greatest key among those that satisfy the test, the lowest-numbered of equals. -/
def IsOldest (p : EntryId → Bool) (key : EntryId → Nat) (e : EntryId) : Prop :=
  p e = true ∧ ∀ e', p e' = true → key e' ≤ key e ∧ (key e' = key e → e ≤ e')

theorem oldestEntry_spec (p : EntryId → Bool) (key : EntryId → Nat) :
    (∀ e, oldestEntry p key = some e → IsOldest p key e) ∧ (oldestEntry p key = none → ∀ e, p e = false) := by
  suffices H : ∀ n (h : n ≤ 16),
      let best := ((List.finRange 16).take n).foldl (fun best e =>
        if p e then match best with | some b => if key b < key e then some e else some b | none => some e
        else best) (none : Option EntryId)
      (∀ e, best = some e → p e = true ∧ e.val < n ∧
        ∀ e' : EntryId, e'.val < n → p e' = true → key e' ≤ key e ∧ (key e' = key e → e ≤ e')) ∧
      (best = none → ∀ e : EntryId, e.val < n → p e = false) by
    have := H 16 le_rfl
    have htake : (List.finRange 16).take 16 = List.finRange 16 := by rfl
    rw [htake] at this
    exact ⟨fun e he => ⟨(this.1 e he).1, fun e' => (this.1 e he).2.2 e' e'.isLt⟩, fun hn e => this.2 hn e e.isLt⟩
  intro n
  induction n with
  | zero => exact fun _ => ⟨fun e he => by simp at he, fun _ e he => absurd he (by omega)⟩
  | succ n ih =>
    intro h
    have ih := ih (by omega)
    have hlen : n < (List.finRange 16).length := by simp; omega
    have hstep : (List.finRange 16).take (n + 1) = (List.finRange 16).take n ++ [⟨n, by omega⟩] := by
      rw [List.take_add_one, List.getElem?_eq_getElem hlen]
      simp
    simp only [hstep, List.foldl_append, List.foldl_cons, List.foldl_nil]
    generalize ((List.finRange 16).take n).foldl _ _ = best at ih ⊢
    have hlt : ∀ e : EntryId, e.val < n + 1 → e.val < n ∨ e = ⟨n, by omega⟩ := fun e he =>
      (Nat.lt_succ_iff_lt_or_eq.1 he).imp_right fun h => Fin.ext h
    by_cases hp : p ⟨n, by omega⟩ = true
    · simp only [hp, if_true]
      cases best with
      | none =>
        refine ⟨fun e he => ?_, fun hn => by simp at hn⟩
        cases he
        refine ⟨hp, by simp, fun e' he' hpe' => ?_⟩
        rcases hlt e' he' with h' | rfl
        · rw [ih.2 rfl e' h'] at hpe'; cases hpe'
        · exact ⟨le_rfl, fun _ => le_rfl⟩
      | some b =>
        have hb := ih.1 b rfl
        by_cases hk : key b < key ⟨n, by omega⟩
        · simp only [hk, if_true]
          refine ⟨fun e he => ?_, fun hn => by simp at hn⟩
          cases he
          refine ⟨hp, by simp, fun e' he' hpe' => ?_⟩
          rcases hlt e' he' with h' | rfl
          · have := (hb.2.2 e' h' hpe').1
            exact ⟨by omega, fun h'' => by omega⟩
          · exact ⟨le_rfl, fun _ => le_rfl⟩
        · simp only [hk, if_false]
          refine ⟨fun e he => ?_, fun hn => by simp at hn⟩
          cases he
          refine ⟨hb.1, by omega, fun e' he' hpe' => ?_⟩
          rcases hlt e' he' with h' | rfl
          · exact hb.2.2 e' h' hpe'
          · exact ⟨by omega, fun _ => Fin.le_def.2 (by simpa using hb.2.1.le)⟩
    · have hp' : p ⟨n, by omega⟩ = false := by simpa using hp
      simp only [hp', Bool.false_eq_true, if_false]
      refine ⟨fun e he => ?_, fun hn e he => ?_⟩
      · have hb := ih.1 e he
        refine ⟨hb.1, by omega, fun e' he' hpe' => ?_⟩
        rcases hlt e' he' with h' | rfl
        · exact hb.2.2 e' h' hpe'
        · rw [hp'] at hpe'; cases hpe'
      · rcases hlt e he with h' | rfl
        · exact ih.2 hn e h'
        · exact hp'

/-- No two entries are both the oldest. -/
theorem IsOldest.unique {p : EntryId → Bool} {key : EntryId → Nat} {e e' : EntryId} (h : IsOldest p key e)
    (h' : IsOldest p key e') : e = e' := by
  have h₁ := h.2 e' h'.1
  have h₂ := h'.2 e h.1
  have hk : key e' = key e := le_antisymm h₁.1 h₂.1
  exact le_antisymm (h₁.2 hk) (h₂.2 hk.symm)

/-- What the judgement of PRESSURE does (R94): while its condition holds, the OPEN entry of the greatest age takes the
reason; where it does not hold, or no entry is OPEN, nothing changes. -/
theorem judgePressure_spec (s : State) :
    (∃ e, pressureCondition s = true ∧
      IsOldest (fun d => s.entries[d].state == .opened) (fun d => ageOf s.timeBase s.entries[d].firstMerge) e ∧
      judgePressure s = addReason s e .pressure) ∨
    ((pressureCondition s = true → ∀ e : EntryId, s.entries[e].state ≠ .opened) ∧ judgePressure s = s) := by
  have hs := oldestEntry_spec (fun d => s.entries[d].state == .opened)
    (fun d => ageOf s.timeBase s.entries[d].firstMerge)
  unfold judgePressure
  split
  · next hc =>
    split
    · next e he => exact .inl ⟨e, hc, hs.1 e he, rfl⟩
    · next hn => exact .inr ⟨fun _ e => by simpa using hs.2 hn e, rfl⟩
  · next hc => exact .inr ⟨fun h => absurd h hc, rfl⟩

/-! ## Issue and resolution of ops (R113, R130, R136) -/

/-- The tag that an op takes: FREE, and the lowest-numbered. -/
theorem firstFreeTag_spec {s : State} {t : TagId} (h : firstFreeTag s = some t) :
    s.tags[t] = .free ∧ ∀ t' < t, s.tags[t'] ≠ .free := by
  have := firstWhere_eq_some.1 h
  simpa using this

theorem canIssue_iff {s : State} : canIssue s = true ↔ (∃ t : TagId, s.tags[t] = .free) ∧ s.holdLine = false := by
  simp only [canIssue, firstFreeTag, Bool.and_eq_true, Bool.not_eq_true']
  refine and_congr_left' ⟨fun h => ?_, fun ⟨t, ht⟩ => ?_⟩
  · obtain ⟨t, ht⟩ := Option.isSome_iff_exists.1 h
    exact ⟨t, by simpa using (firstWhere_eq_some.1 ht).1⟩
  · by_contra h
    have := firstWhere_eq_none.1 (Option.not_isSome_iff_eq_none.1 h) t
    simp [ht] at this

/-- A slot's op issued: the tag's record, the op on the issue group, and the slot's memory tag; nothing else. -/
theorem issueForSlot_spec {s : State} {t : TagId} (h : firstFreeTag s = some t) (i : SlotId) (k : OpKind) :
    issueForSlot s i k = { s with
      tags := put s.tags t (.outstanding
        { kind := k, line := s.slots[i].line, source := .slot i, issueTime := s.timeBase })
      issued := some
        { tag := t, kind := k, line := s.slots[i].line, lanes := opLanes k, data := opData k s.slots[i].data }
      slots := put s.slots i { s.slots[i] with memTag := some t } } := by
  simp only [issueForSlot, h]
  rfl

/-- A drain's op issued: the tag's record, the op on the issue group, and the entry's memory tag; nothing else. -/
theorem issueForEntry_spec {s : State} {t : TagId} (h : firstFreeTag s = some t) (e : EntryId) :
    issueForEntry s e = { s with
      tags := put s.tags t (.outstanding
        { kind := .maskedWrite s.entries[e].valid, line := s.entries[e].line, source := .entry e
          issueTime := s.timeBase })
      issued := some
        { tag := t, kind := .maskedWrite s.entries[e].valid, line := s.entries[e].line, lanes := s.entries[e].valid
          data := some (keepLanes s.entries[e].valid s.entries[e].data) }
      entries := put s.entries e { s.entries[e] with memTag := some t } } := by
  simp only [issueForEntry, h]
  rfl

/-! ## Budgets and urgency (R107, R108, R110) -/

/-- A charge changes one balance and one counter. -/
theorem charge_spec (s : State) (k : ClassId) (n : Nat) :
    (charge s k n).balances =
      put s.balances k (if metered s.active k then max (-64) (s.balances[k] - n) else s.balances[k]) ∧
    (let x := s.counters.perClass[k]
     (charge s k n).counters = { s.counters with
       perClass := put s.counters.perClass k { x with bytesCharged := satAdd x.bytesCharged n } }) :=
  ⟨rfl, rfl⟩

/-- An urgency judgement sets one flag; a flag that becomes set counts one episode. -/
theorem judgeUrgency_spec (s : State) (k : ClassId) :
    (judgeUrgency s k).urgent = put s.urgent k (urgentNow s k) ∧
    (judgeUrgency s k).counters = (if urgentNow s k = true ∧ s.urgent[k] = false then
      let x := s.counters.perClass[k]
      { s.counters with
        perClass := put s.counters.perClass k { x with urgentEpisodes := satAdd x.urgentEpisodes 1 } }
      else s.counters) := by
  unfold judgeUrgency
  cases h : urgentNow s k <;> cases h' : s.urgent[k] <;> simp [countEpisode, countClass]

/-! ## The end of an event (R164, R170) -/

/-- In RUNNING and QUIESCENT the end of an event publishes references and changes nothing else. -/
theorem conclude_running {before after : State} (h : after.part = .running ∨ after.part = .quiescent) :
    conclude before after = { after with responses := after.responses ++ readyRefs before after } := by
  have hp : (publish before after).part = after.part := rfl
  have : judgeEmpty (publish before after) = publish before after := by
    rcases h with h | h <;> simp only [judgeEmpty, hp, h]
  exact this

/-- A DRAINING part that is empty is QUIESCENT and raises DRAINED; one that is not stays. -/
theorem judgeEmpty_draining {s : State} (h : s.part = .draining) :
    judgeEmpty s = if emptyConditions s then
      { s with part := .quiescent, causes := { s.causes with drained := true } } else s := by
  simp only [judgeEmpty, h]
  rfl

/-- A RESTARTING part that is empty completes its restart (R171); one that is not stays. -/
theorem judgeEmpty_restarting {s : State} (h : s.part = .restarting) :
    judgeEmpty s = if emptyConditions s then
      { s with
        part := .running, pointer := 0, balances := tabulate (fun k => ceiling s.active k)
        causes := { s.causes with restarted := true } } else s := by
  simp only [judgeEmpty, h]
  rfl

theorem emptyConditions_iff {s : State} : emptyConditions s = true ↔
    (∀ i : SlotId, s.slots[i].state = .free) ∧ (∀ k : FenceId, s.fences[k].state = .free) ∧
    (∀ e : EntryId, s.entries[e].state = .free) ∧ (∀ t : TagId, isOutstanding s.tags[t] = false) ∧
    s.responses = [] := by
  simp only [emptyConditions, Bool.and_eq_true, allOf_iff, List.isEmpty_iff, beq_iff_eq, Bool.not_eq_true', and_assoc]

end Sys2Proof.Machine
end

