-- ==== Sys2Proof/Laws/Checks.lean ====
section
/-! SUPPORT. The terms of Safety.lean and the tests of the machine agree: the shape check, the READ or WRITE a record
carries, a window's cover and access flags, the empty conditions, and the period of the budget refill. -/

namespace Sys2Proof.Machine

/-! ## The checks of R7 -/

theorem mem_take_iff_getElem? {α : Type} {l : List α} {n : Nat} {x : α} :
    x ∈ l.take n ↔ ∃ m < n, l[m]? = some x := by
  rw [List.mem_iff_getElem?]
  constructor
  · rintro ⟨m, hm⟩
    rw [List.getElem?_take] at hm
    split at hm
    · exact ⟨m, ‹_›, hm⟩
    · cases hm
  · rintro ⟨m, hlt, hm⟩
    exact ⟨m, by rw [List.getElem?_take, if_pos hlt, hm]⟩

theorem wellShaped_iff {r : Request} : WellShaped r ↔ shapeOk r = true := by
  cases r <;> simp only [WellShaped, shapeOk, Bool.and_eq_true, decide_eq_true_eq, List.any_eq_true, id,
    exists_eq_right, mem_take_iff_getElem?, and_assoc, Bool.false_eq_true] <;> rfl

@[simp] theorem toNat_lineOf (address : BitVec 40) : (lineOf address).toNat = address.toNat / 64 := by
  have := address.isLt
  simp only [lineOf, BitVec.toNat_ofNat]
  omega

/-- The written lanes of a WRITE, lane by lane (R1). -/
theorem writtenLanes_iff (o : Lane) (n : Nat) (strobes : List Bool) (l : Lane) :
    (writtenLanes o n strobes)[l] = true ↔ ∃ m < n, l.val = o.val + m ∧ strobes[m]? = some true := by
  have hget (m : Nat) : strobes.getD m false = true ↔ strobes[m]? = some true := by
    rw [List.getD_eq_getElem?_getD]
    cases strobes[m]? <;> simp
  simp only [writtenLanes, get_tabulate, Bool.and_eq_true, decide_eq_true_eq, hget]
  constructor
  · rintro ⟨⟨h₁, h₂⟩, h₃⟩
    exact ⟨l.val - o.val, by omega, by omega, h₃⟩
  · rintro ⟨m, h₁, h₂, h₃⟩
    have : l.val - o.val = m := by omega
    exact ⟨⟨by omega, by omega⟩, by rwa [this]⟩

/-- The data area of a WRITE, lane by lane (R38). -/
theorem get_writtenData (o : Lane) (n : Nat) (strobes : List Bool) (bytes : List Byte) (l : Lane) :
    (writtenData o n strobes bytes)[l] =
      if (writtenLanes o n strobes)[l] then bytes.getD (l.val - o.val) 0 else 0 := by
  simp only [writtenData, Fin.getElem_fin, get_keepLanes, get_tabulate_val]

/-- A record carries exactly the READ or WRITE that Intake takes from it. -/
theorem carries_iff {r : Request} {a : AccessReq} : Carries r a ↔ accessOf r = some a := by
  obtain ⟨ai, at', ak, al, ao, an, au, am, ad⟩ := a
  have hline (address : BitVec 40) : lineOf address = al ↔ al.toNat = address.toNat / 64 := by
    rw [← BitVec.toNat_inj, toNat_lineOf, eq_comm]
  have hoff (address : BitVec 40) : offsetOf address = ao ↔ ao.val = address.toNat % 64 := by
    rw [Fin.ext_iff, eq_comm]; rfl
  cases r with
  | read i g address length u =>
    have hv : (∀ l : Lane, am[l] = false ∧ ad[l] = 0) ↔ noLanes = am ∧ zeroLine = ad := by
      constructor
      · exact fun h => ⟨vector_ext fun l => by rw [(h l).1]; simp, vector_ext fun l => by rw [(h l).2]; simp [zeroLine]⟩
      · rintro ⟨rfl, rfl⟩ l
        simp [zeroLine]
    simp only [Carries, accessOf, Option.some.injEq, AccessReq.mk.injEq, hv, hline, hoff]
    simp only [eq_comm (a := ai), eq_comm (a := at'), eq_comm (a := ak), eq_comm (a := an), eq_comm (a := au)]
  | write i g address length u strobes data =>
    have hv : (∀ l : Lane, (am[l] = true ↔ ∃ n < length, l.val = address.toNat % 64 + n ∧ strobes[n]? = some true) ∧
        ad[l] = if am[l] then data.getD (l.val - address.toNat % 64) 0 else 0) ↔
        writtenLanes (offsetOf address) length strobes = am ∧
          writtenData (offsetOf address) length strobes data = ad := by
      constructor
      · intro h
        have hm : writtenLanes (offsetOf address) length strobes = am :=
          vector_ext fun l => Bool.eq_iff_iff.2 ((writtenLanes_iff _ _ _ l).trans (h l).1.symm)
        exact ⟨hm, vector_ext fun l => by rw [get_writtenData, hm, (h l).2]; rfl⟩
      · rintro ⟨rfl, rfl⟩ l
        exact ⟨writtenLanes_iff _ _ _ l, get_writtenData _ _ _ _ l⟩
    simp only [Carries, accessOf, Option.some.injEq, AccessReq.mk.injEq, hv, hline, hoff]
    simp only [eq_comm (a := ai), eq_comm (a := at'), eq_comm (a := ak), eq_comm (a := an), eq_comm (a := au)]
  | fence i g => simp [Carries, accessOf]
  | other i g k => simp [Carries, accessOf]

theorem flagOf_iff {w : Word} : flagOf w = true ↔ w = 1 := by
  simp only [flagOf, beq_iff_eq]
  exact ⟨fun h => BitVec.eq_of_toNat_eq h, fun h => by rw [h]; rfl⟩

theorem covers_iff {w : WindowItems} {a : LineAddr} : Covers w a ↔ windowCovers w a = true := by
  simp only [Covers, windowCovers, Bool.and_eq_true, decide_eq_true_eq, flagOf_iff, and_assoc]
  rfl

theorem allows_iff {x : WindowAttrs} {c : ConfigSet} {i : InitiatorId} {k : Access} :
    Allows x c.initiators[i].group k ↔ accessAllowed x (initiatorGroup c i) k = true := by
  cases k <;> rfl

/-! ## The encodings of R194 -/

theorem writeModeOf_spec (w : Word) : writeModeOf w = if w = 0 then .merge else if w = 1 then .post else .confirm := by
  unfold writeModeOf
  split
  · next h => rw [if_pos (BitVec.eq_of_toNat_eq h)]
  · next h =>
    obtain rfl : w = 1 := BitVec.eq_of_toNat_eq h
    rfl
  · next h₀ h₁ => rw [if_neg (by rintro rfl; exact h₀ rfl), if_neg (by rintro rfl; exact h₁ rfl)]

theorem toNat_eq_zero_iff {w : Word} : w.toNat = 0 ↔ w = 0 :=
  ⟨fun h => BitVec.eq_of_toNat_eq h, fun h => by rw [h]; rfl⟩

theorem forwardingOf_spec (w : Word) : forwardingOf w = if w = 0 then .allowed else .strict := by
  simp only [forwardingOf, toNat_eq_zero_iff]

theorem faultPolicyOf_spec (w : Word) : faultPolicyOf w = if w = 0 then .error else .poison := by
  simp only [faultPolicyOf, toNat_eq_zero_iff]

/-! ## The empty conditions (R164) -/

theorem isOutstanding_eq_false_iff {x : TagRecord} : isOutstanding x = false ↔ ∀ op, x ≠ .outstanding op := by
  cases x <;> simp [isOutstanding]

theorem nothingHeld_iff {s : State} : NothingHeld s ↔ emptyConditions s = true := by
  simp only [NothingHeld, emptyConditions_iff, isOutstanding_eq_false_iff]

/-! ## The refill period (R106, R107, R122) -/

/-- The part of a step before its judgements: the count, the ages, the refill count and the period in force. -/
theorem advanceTime_spec (s : State) :
    advanceTime s = { s with
      timeBase := s.timeBase + 1, slots := tabulate (fun i => agedSlot s.slots[i])
      refillCount := s.refillCount + 1, periodInForce := s.active.refillPeriod } := by
  simp only [advanceTime, setPeriodInForce, setRefillCount, setSlots, setTimeBase]

/-- An expiry raises the metered balances and returns the refill count to 0; where the count has not reached the period
in force nothing changes. -/
theorem judgeRefill_spec (s : State) :
    (s.periodInForce.toNat ≤ s.refillCount → judgeRefill s = { s with
      balances := tabulate (fun k => refilled s.active k s.balances[k]), refillCount := 0 }) ∧
    (s.refillCount < s.periodInForce.toNat → judgeRefill s = s) := by
  simp only [judgeRefill, refillDue, decide_eq_true_eq]
  exact ⟨fun h => if_pos h, fun h => if_neg (by omega)⟩

end Sys2Proof.Machine
end

