-- ==== Sys2Proof/Tests/Slice0.lean ====
section
/-! SUPPORT. Tests of one command each on small states, with results taken from the manual's own rules and sequences,
and a witness for the hypotheses of each statement of Certificates/Slice0/Obligations.lean. -/

namespace Sys2Proof.Tests

set_option Elab.async false

open Sys2Proof.Machine

/-! ## Small states -/

/-- The state a command leaves. -/
def after (c : Instr) (s : State) : State :=
  match exec c s with
  | .next t => t
  | .fault _ => s
  | .refused _ => s

/-- A line of one byte value. -/
def lineOfByte (b : Byte) : LineData := Vector.replicate 64 b

/-- A QUEUED READ of lanes 0 to 63 of line 0x0A00, in class 0. -/
def aRead : Slot := { Slot.reset with state := .queued, line := 0x0A00, length := 64, effCls := some 0 }

/-- A QUEUED WRITE of lanes 0 to 7 of line 0x0A00, in class 0. -/
def aWrite (m : WriteMode) : Slot :=
  { aRead with kind := .write, mode := m, length := 8, lanes := laneRange 0 8, data := lineOfByte 0xB1 }

/-- An OPEN entry of line 0x0A00 with lanes 0 to 7 valid, merged by initiator 1 (sequence 12.1). -/
def anEntry : MergeEntry :=
  { MergeEntry.free with
    state := .opened, line := 0x0A00, data := lineOfByte 0xA1, valid := laneRange 0 8
    contributors := put MergeEntry.free.contributors 1 (some .posted) }

/-- The entry with one reason to drain. -/
def waitingEntry (r : Reason) : MergeEntry := withReason anEntry r 0

/-- A part that holds the slot 0 given, alone on its line; the line refers to entry 0 where one is held. -/
def holding (x : Slot) (m : MergeEntry) : State :=
  { State.reset with
    slots := put State.reset.slots 0 x, arrival := [0], queues := put State.reset.queues 0 [0]
    lines := [{ line := 0x0A00, list := [0], mergeRef := if m.state = .free then none else some 0 }]
    entries := put State.reset.entries 0 m }

/-- A part that holds entry 0 and no request. -/
def holdingEntry (m : MergeEntry) : State :=
  { State.reset with
    lines := [{ line := 0x0A00, list := [], mergeRef := some 0 }], entries := put State.reset.entries 0 m }

/-- An op under tag 0 for the source, issued at 0. -/
def outstanding (src : Source) : TagRecord :=
  .outstanding { kind := .lineRead, line := 0x0A00, source := src, issueTime := 0 }

/-- A part whose tag 0 is OUTSTANDING for slot 0. -/
def issuedFor (x : Slot) : State :=
  { State.reset with
    slots := put State.reset.slots 0 { x with memTag := some 0, effCls := none }, arrival := [0]
    tags := put State.reset.tags 0 (outstanding (.slot 0)) }

/-- A part whose entry 0 is DRAINING under tag 0. -/
def drainingPart : State :=
  { holdingEntry { waitingEntry .aged with state := .draining, memTag := some 0 } with
    tags := put State.reset.tags 0 (outstanding (.entry 0)) }

/-- A DONE slot with its response in the Response Queue. -/
def answered (x : Slot) : State :=
  { State.reset with
    slots := put State.reset.slots 0 { x with state := .done, status := some .ok, effCls := none }, arrival := [0]
    responses := [.slot 0] }

/-- A fault record. -/
def aFault : FaultRecord := entryRecord anEntry .memFault 5

/-- Every slot FREE but the ones below the number given. -/
def crowded (n : Nat) : State :=
  { State.reset with slots := tabulate (fun i => if i.val < n then { Slot.reset with state := .done } else Slot.reset) }

/-- A READ of lanes 0 to 63 of line 0x0A00 by initiator 3 under tag 9. -/
def readRequest : Request := .read 3 9 0x28000 64 0

/-! ## Well-formedness: an ill-formed command for each check -/

theorem test_wellFormed_ok :
    (Instr.presentation (.write 1 2 0x28000 2 0 [true, false] [0xA1, 0xA2])).wellFormed = true := by decide
theorem test_wellFormed_strobes :
    (Instr.presentation (.write 1 2 0x28000 2 0 [true] [0xA1, 0xA2])).wellFormed = false := by decide
theorem test_wellFormed_data :
    (Instr.presentation (.write 1 2 0x28000 2 0 [true, true] [0xA1])).wellFormed = false := by decide
theorem test_wellFormed_knownCode : (Instr.unknownCommand 0x33).wellFormed = false := by decide
theorem test_wellFormed_unknownCode : (Instr.unknownCommand 0x34).wellFormed = true := by decide

/-! ## Frames written out from R174 and R194 -/

theorem test_frame_readItem : decodeFrame [0x01, 0x14, 0x03, 0, 0, 0, 0] = .readItem 0x1403 := by decide
theorem test_frame_writeItem :
    decodeFrame [0x02, 0x12, 0x34, 0x00, 0x01, 0x2F, 0xFF] = .writeItem 0x1234 0x00012FFF := by decide
theorem test_frame_commit : decodeFrame [0x10, 0xAA, 0xBB, 1, 2, 3, 4] = .commit := by decide
theorem test_frame_discardStaged : decodeFrame [0x11, 0, 0, 0, 0, 0, 0] = .discardStaged := by decide
theorem test_frame_drain : decodeFrame [0x20, 0, 0, 0, 0, 0, 0] = .drain := by decide
theorem test_frame_resume : decodeFrame [0x21, 0, 0, 0, 0, 0, 0] = .resume := by decide
theorem test_frame_restart : decodeFrame [0x22, 0, 0, 0, 0, 0, 0] = .restart := by decide
theorem test_frame_takeFault : decodeFrame [0x30, 0, 0, 0, 0, 0, 0] = .takeFault := by decide
theorem test_frame_ackAlert : decodeFrame [0x31, 0, 0, 0, 0, 0, 0x43] = .ackAlert 0x43 := by decide
theorem test_frame_clearCounters : decodeFrame [0x32, 0, 0, 0, 0, 0, 0] = .clearCounters := by decide
theorem test_frame_status : decodeFrame [0x33, 0, 1, 0, 0, 0, 0, 0xFF] = .status 1 := by decide
theorem test_frame_unknown : decodeFrame [0x34, 0, 0, 0, 0, 0, 0] = .unknownCommand 0x34 := by decide
theorem test_frame_short : decodeFrame [0x10, 0, 0, 0, 0, 0] = .shortFrame := by decide
/-- The first bit taken is the most significant of byte 1; a byte left in the middle is discarded. -/
theorem test_select_bits : bytesOfBits [false, false, true, true, false, false, true, true, true] = [0x33] := by decide

/-- R174, R194: bytes 8 to 12 carry BAD_VALUE with item 0x1504; the bytes before and after are zero. -/
theorem test_answer_bytes :
    (List.range 14).map (mdoByte { status := .badValue, value := 0x1504 }) =
      [0, 0, 0, 0, 0, 0, 0, 0x03, 0x00, 0x00, 0x15, 0x04, 0, 0] := by decide

/-! ## One step for each command -/

/-- R5: offset plus length of 65 crosses the line's end and fails the shape check. -/
theorem test_presentation_shape :
    let t := after (.presentation (.read 3 9 0x28001 64 0)) State.reset
    t.refusals[(0 : RefusalId)] = some { initiator := 3, tag := 9, kind := .read, status := .errShape } ∧
      t.responses = [.refusal 0] := by decide +kernel
/-- R8, R37: byte address 0x28000 is line 0x0A00, lane 0. -/
theorem test_presentation_accept :
    let t := after (.presentation readRequest) State.reset
    t.slots[(0 : SlotId)].line = 0x0A00 ∧ t.queues[(0 : ClassId)] = [0] ∧ t.answer = some .accept := by decide +kernel
/-- R16, R17: a delivery frees the slot. -/
theorem test_delivery :
    let t := after .delivery (answered aRead)
    t.slots[(0 : SlotId)].state = .free ∧ t.arrival = [] ∧ t.responses = [] := by decide +kernel
/-- 12.1: a merge of 8 lanes allocates entry 0 and charges 8 bytes. -/
theorem test_grant_merge :
    let t := after .grant (holding (aWrite .merge) MergeEntry.free)
    t.entries[(0 : EntryId)].state = .opened ∧ t.slots[(0 : SlotId)].status = some .ok ∧
      t.counters.perClass[(0 : ClassId)].bytesCharged = 8 := by decide +kernel
/-- 12.2: an overlay read issues a LINE_READ and is charged 64. -/
theorem test_grant_overlay :
    let t := after .grant (holding aRead anEntry)
    t.slots[(0 : SlotId)].snapshot = some (laneRange 0 8) ∧ t.counters.overlayReads = 1 ∧
      t.counters.perClass[(0 : ClassId)].bytesCharged = 64 := by decide +kernel
/-- 12.1: a drain grant makes the entry DRAINING under tag 0. -/
theorem test_drainGrant :
    let t := after .drainGrant (holdingEntry (waitingEntry .aged))
    t.entries[(0 : EntryId)].state = .draining ∧ t.entries[(0 : EntryId)].memTag = some 0 ∧
      t.counters.drainsIssued = 1 := by decide +kernel
/-- R139: tag value 24 names no record. R138: a late completion frees its tag. -/
theorem test_completion_discarded :
    (after (.completion 24 .ok zeroLine) State.reset).causes.strayCompletion = true ∧
      (let t := after (.completion 0 .ok zeroLine) { State.reset with tags := put State.reset.tags 0 .quarantined }
       t.tags[(0 : TagId)] = .free ∧ t.counters.lateCompletions = 1) := by decide +kernel
/-- 12.1: a drain's completion frees the entry and removes the line entry. -/
theorem test_completion_drain :
    let t := after (.completion 0 .ok zeroLine) drainingPart
    t.entries[(0 : EntryId)].state = .free ∧ t.lines = [] ∧ t.tags[(0 : TagId)] = .free := by decide +kernel
/-- R141, R113: while HOLD is asserted no op is issued. -/
theorem test_hold : choose (after (.hold true) (holding aRead MergeEntry.free)) = none := by decide +kernel
/-- R46, R195: a step raises the time base and the ages. -/
theorem test_timeBaseStep :
    let t := after .timeBaseStep (holding aRead MergeEntry.free)
    t.timeBase = 1 ∧ t.slots[(0 : SlotId)].age = 1 ∧ t.refillCount = 1 := by decide +kernel
/-- R107: at the period of 32 a metered class rises by its refill of 512, up to 8192. -/
theorem test_refillExpiry :
    let s := after (.writeItem 0x1402 1) State.reset
    (after .refillExpiry { s with active := s.staged, refillCount := 32, balances := put s.balances 0 (-64) }).balances[
      (0 : ClassId)] = 448 := by decide +kernel
/-- R106: a period that a COMMIT lowers to the count or below expires at the next step, not before. -/
theorem test_refillPeriod_lowered :
    let s := after .commit (after (.writeItem 0x1500 4) { State.reset with refillCount := 10 })
    after .refillExpiry s = s ∧ (after .timeBaseStep s).refillCount = 0 := by decide +kernel
/-- R93: at the hold limit of 128 steps the entry takes AGED. -/
theorem test_aged :
    (after (.aged 0) { holdingEntry anEntry with timeBase := 128 }).entries[(0 : EntryId)].reasons = [.aged] := by
  decide +kernel
/-- R110, R111: at the latency limit the flag is set and the episode is counted. -/
theorem test_urgentEpisode :
    let s := after (.writeItem 0x1406 4) (holding { aRead with age := 4 } MergeEntry.free)
    let t := after (.urgentEpisode 0) { s with active := s.staged }
    t.urgent[(0 : ClassId)] = true ∧ t.counters.perClass[(0 : ClassId)].urgentEpisodes = 1 := by decide +kernel
/-- 12.4: at 4096 steps the op times out, and its READ is DONE with ERR_TIMEOUT. -/
theorem test_responseTimeout :
    let t := after (.responseTimeout 0) { issuedFor { aRead with state := .issued } with timeBase := 4096 }
    t.tags[(0 : TagId)] = .quarantined ∧ t.slots[(0 : SlotId)].status = some .errTimeout ∧
      t.causes.memTimeout = true := by decide +kernel
/-- R173: while RESET is asserted a presentation is neither accepted nor deferred. -/
theorem test_hardReset :
    let t := after .hardReset (holding aRead anEntry)
    t.resetLine = true ∧ t.arrival = [] ∧ (after (.presentation readRequest) t).answer = none := by decide +kernel
theorem test_resetDeassert : (after .resetDeassert (after .hardReset State.reset)).resetLine = false := by
  decide +kernel
/-- R175, R194: SHORT_FRAME is bit 2 of status word 0, read and then cleared. -/
theorem test_shortFrame :
    let t := after (.status 0) (after .shortFrame State.reset)
    t.mgmt = some { status := .done, value := 4 } ∧ t.shortFrame = false := by decide +kernel
theorem test_unknownCommand :
    (after (.unknownCommand 0x34) State.reset).mgmt = some { status := .badItem, value := 0 } := by decide +kernel
/-- R194: item 0x1403 is class 0's ceiling, 8192 after reset. -/
theorem test_readItem :
    (after (.readItem 0x1403) State.reset).mgmt = some { status := .done, value := 8192 } := by decide +kernel
theorem test_writeItem :
    let t := after (.writeItem 0x1403 100) State.reset
    t.staged.classes[(0 : ClassId)].ceiling = 100 ∧ t.active.classes[(0 : ClassId)].ceiling = 8192 := by
  decide +kernel
/-- R179: an active mirror is read-only. -/
theorem test_writeItem_mirror :
    (after (.writeItem 0x5403 100) State.reset).mgmt = some { status := .readOnly, value := 0 } := by decide +kernel
/-- R184: a COMMIT that succeeds answers the new epoch. -/
theorem test_commit :
    let t := after .commit State.reset
    t.mgmt = some { status := .done, value := 1 } ∧ t.epoch = 1 := by decide +kernel
/-- R182: the lowest failing item number is answered. -/
theorem test_commit_refused :
    (after .commit (after (.writeItem 0x1504 0x80) State.reset)).mgmt =
      some { status := .badValue, value := 0x1504 } := by decide +kernel
theorem test_discardStaged :
    (after .discardStaged (after (.writeItem 0x1504 1) State.reset)).staged.alertMask = 0 := by decide +kernel
/-- 12.7: DRAIN in RUNNING with an OPEN entry answers 1, the code of DRAINING. -/
theorem test_drain :
    let t := after .drain (holdingEntry anEntry)
    t.part = .draining ∧ t.mgmt = some { status := .done, value := 1 } ∧
      t.entries[(0 : EntryId)].reasons = [.drainCmd] := by decide +kernel
theorem test_resume : (after .resume { State.reset with part := .quiescent }).part = .running := by decide +kernel
/-- R167, R101: an entry not yet granted its drain is discarded with a record. -/
theorem test_restart :
    let t := after .restart (holdingEntry anEntry)
    t.part = .running ∧ t.faults.map (·.kind) = [.discarded] ∧ t.causes.restarted = true := by decide +kernel
theorem test_takeFault :
    let t := after .takeFault { State.reset with faults := [aFault], overflow := 3 }
    t.faults = [] ∧ t.overflow = 0 ∧ readoutValue t.readout .overflow = 3 ∧ readoutValue t.readout .lineLo = 0x0A00 := by
  decide +kernel
/-- R191: the causes still pending are answered. -/
theorem test_ackAlert :
    (after (.ackAlert 1) { State.reset with causes :=
      { EdgeCauses.reset with faultRecorded := true, drained := true } }).mgmt =
      some { status := .done, value := 0x10 } := by decide +kernel
theorem test_clearCounters :
    (after .clearCounters { State.reset with counters := { Counters.reset with timeouts := 7 } }).counters.timeouts = 0 := by
  decide +kernel
/-- R194: 48 slots, 16 entries and 24 tags are FREE after reset. -/
theorem test_status : (after (.status 1) State.reset).mgmt = some { status := .done, value := 0x00181030 } := by
  decide +kernel
theorem test_step : step { State.reset with pending := [.hold true, .drain] } =
    .next { State.reset with holdLine := true, pending := [.drain] } := rfl

/-! ## Witnesses: a state and operands that meet the hypotheses of each statement -/

/-! ### The machine, reset, frames and items -/

theorem witness_StepTakesTheFrontCommand :
    (∃ (s : State) (c : Instr) (rest : List Instr), s.pending = c :: rest) ∧ ∃ s : State, s.pending = [] :=
  ⟨⟨{ State.reset with pending := [.grant, .delivery] }, .grant, [.delivery], rfl⟩, ⟨State.reset, rfl⟩⟩

theorem witness_HeldWhileResetAsserted :
    ∃ (c : Instr) (s t : State), s.resetLine = true ∧ c ≠ .hardReset ∧ c ≠ .resetDeassert ∧ (∀ l, c ≠ .hold l) ∧
      exec .hardReset s = .next t :=
  ⟨.timeBaseStep, { State.reset with resetLine := true }, _, rfl, by simp, by simp, by simp, rfl⟩

theorem witness_FrameDecodesWhatItEncodes :
    (∃ (c : Instr) (bytes : List Byte), c.wellFormed = true ∧ encodeFrame c = some bytes) ∧
    (∃ bytes : List Byte, bytes.length = 6) ∧ (∃ bytes : List Byte, bytes.length = 7) ∧
    ∃ left : List Bool, left.length = 7 :=
  ⟨⟨.unknownCommand 0x34, _, rfl, rfl⟩, ⟨List.replicate 6 0, rfl⟩, ⟨List.replicate 7 0, rfl⟩,
    ⟨List.replicate 7 true, rfl⟩⟩

theorem witness_ItemNumbersRoundTrip : ∃ n it, stagedItemAt n = some it ∧ n = 0x1504 :=
  ⟨0x1504, .alertMask, by decide +kernel, rfl⟩

theorem stagedNumber_ge (it : StagedItem) : 0x1000 ≤ stagedNumber it := by
  cases it <;> simp only [stagedNumber] <;> omega

theorem witness_ReadItemReturnsTheItem : ∃ (s : State) (n : BitVec 16), s.resetLine = false ∧
    ¬ (n.toNat ≤ 1 ∨ n.toNat = 4 ∨ n.toNat = 8 ∨ (0x10 ≤ n.toNat ∧ n.toNat ≤ 0x17) ∨
      (0x20 ≤ n.toNat ∧ n.toNat ≤ 0x25) ∨ (∃ (k : ClassId) (j : Fin 5), n.toNat = 0x100 + 16 * k + j) ∨
      (0x180 ≤ n.toNat ∧ n.toNat ≤ 0x18B) ∨ ∃ it, n.toNat = stagedNumber it ∨ n.toNat = stagedNumber it + 0x4000) := by
  refine ⟨State.reset, 0x18C, rfl, ?_⟩
  rintro (h | h | h | h | h | ⟨k, j, h⟩ | h | ⟨it, h⟩)
  · revert h; decide
  · revert h; decide
  · revert h; decide
  · revert h; decide
  · revert h; decide
  · revert k j h; decide
  · revert h; decide
  · have := stagedNumber_ge it
    change 0x18C = _ ∨ 0x18C = _ at h
    omega

theorem witness_WriteItemStoresTheValue : ∃ s : State, s.resetLine = false ∧
    (∃ x, itemAt 0 = some x ∧ ∀ it, x ≠ .staged it) ∧ (∃ x, itemAt 0x5504 = some x ∧ ∀ it, x ≠ .staged it) ∧
    itemAt 2 = none ∧ itemAt 0x1505 = none :=
  ⟨State.reset, rfl, ⟨.statusWord0, by decide +kernel, by simp⟩, ⟨.mirror .alertMask, by decide +kernel, by simp⟩,
    by decide +kernel, by decide +kernel⟩

theorem witness_DiscardStagedAndClearCounters : ∃ s : State, s.resetLine = false := ⟨State.reset, rfl⟩

/-! ### Management commands -/

/-- The checks of R181 as a test that runs. -/
def itemFails (c : ConfigSet) : StagedItem → Bool
  | .initiatorEnabled i => 1 < c.initiators[i].enabled.toNat
  | .initiatorGroup i => 3 < c.initiators[i].group.toNat
  | .classMap g u => 5 < c.classMap[g][u].toNat
  | .windowRange w .enabled => 1 < c.windows[w].enabled.toNat
  | .windowRange w .baseHi => 3 < c.windows[w].baseHi.toNat
  | .windowRange _ .baseLo => false
  | .windowRange w .limitHi => 3 < c.windows[w].limitHi.toNat
  | .windowRange w .limitLo =>
      lineFromItems c.windows[w].limitHi c.windows[w].limitLo < lineFromItems c.windows[w].baseHi c.windows[w].baseLo
  | .windowAttr w f => attr c.windows[w].attrs f
  | .dfltEnabled => 1 < c.dfltWindow.enabled.toNat
  | .dfltAttr f => attr c.dfltWindow.attrs f
  | .cls k .reservation =>
      8 < reservation c k || cap c k < reservation c k || reservedBelow c k ≤ 40 && 40 < reservedBelow c (k + 1 : Nat)
  | .cls k .cap => cap c k = 0 || 48 < cap c k
  | .cls k .metered => 1 < c.classes[k].metered.toNat
  | .cls k .ceiling => ceiling c k < 64 || 1048575 < ceiling c k
  | .cls k .refill => 65535 < refill c k
  | .cls k .hardCap => 1 < c.classes[k].hardCap.toNat
  | .cls k .latencyLimit => 65535 < latencyLimit c k
  | .refillPeriod => c.refillPeriod.toNat = 0 || 4095 < c.refillPeriod.toNat
  | .responseTimeout => c.responseTimeout.toNat < 16 || 65535 < c.responseTimeout.toNat
  | .holdLimit => c.holdLimit.toNat = 0 || 4095 < c.holdLimit.toNat
  | .mergeReserve => 8 < c.mergeReserve.toNat
  | .alertMask => 0x7F < c.alertMask.toNat
where
  attr (a : WindowAttrs) : AttrField → Bool
    | .access => 0xFF < a.access.toNat
    | .mode => 2 < a.mode.toNat
    | .forwarding => 1 < a.forwarding.toNat
    | .policy => 2 < a.policy.toNat
    | .classValue => 5 < a.classValue.toNat
    | .faultPolicy => 1 < a.faultPolicy.toNat

theorem itemFails_of {c : ConfigSet} {it : StagedItem} (h : ItemFails c it) : itemFails c it = true := by
  cases it with
  | windowRange w f => cases f <;> simp_all [ItemFails, itemFails]
  | windowAttr w f => cases f <;> simp_all [ItemFails, itemFails, attrFails, itemFails.attr]
  | dfltAttr f => cases f <;> simp_all [ItemFails, itemFails, attrFails, itemFails.attr]
  | cls k f => cases f <;> simp_all [ItemFails, itemFails, or_assoc]
  | _ => simp_all [ItemFails, itemFails]

def everyAttr : List AttrField := [.access, .mode, .forwarding, .policy, .classValue, .faultPolicy]
def everyRange : List RangeField := [.enabled, .baseHi, .baseLo, .limitHi, .limitLo]
def everyClassField : List ClassField := [.reservation, .cap, .metered, .ceiling, .refill, .hardCap, .latencyLimit]

/-- Every staged item. -/
def everyItem : List StagedItem :=
  [StagedItem.dfltEnabled, StagedItem.refillPeriod, StagedItem.responseTimeout, StagedItem.holdLimit,
    StagedItem.mergeReserve, StagedItem.alertMask] ++
  (List.finRange 32).map StagedItem.initiatorEnabled ++ (List.finRange 32).map StagedItem.initiatorGroup ++
  (List.finRange 4).flatMap (fun g => (List.finRange 8).map (StagedItem.classMap g)) ++
  (List.finRange 16).flatMap (fun w => everyRange.map (StagedItem.windowRange w)) ++
  (List.finRange 16).flatMap (fun w => everyAttr.map (StagedItem.windowAttr w)) ++
  everyAttr.map StagedItem.dfltAttr ++ (List.finRange 6).flatMap (fun k => everyClassField.map (StagedItem.cls k))

theorem mem_everyItem (it : StagedItem) : it ∈ everyItem := by
  cases it with
  | windowRange w f => cases f <;> simp [everyItem, everyRange]
  | windowAttr w f => cases f <;> simp [everyItem, everyAttr]
  | dfltAttr f => cases f <;> simp [everyItem, everyAttr]
  | cls k f => cases f <;> simp [everyItem, everyClassField]
  | _ => simp [everyItem]

theorem passes_of {c : ConfigSet} (h : everyItem.all (fun it => !itemFails c it) = true) (it : StagedItem) :
    ¬ ItemFails c it := fun hf => by
  have := List.all_eq_true.1 h it (mem_everyItem it)
  simp [itemFails_of hf] at this

/-- A window over lines 0x0A00 to 0x0AFF, under a class policy with class 5. -/
def aWindow (policy : Word) : WindowItems :=
  { enabled := 1, baseHi := 0, baseLo := 0x0A00, limitHi := 0, limitLo := 0x0AFF
    attrs := { WindowAttrs.reset with policy, classValue := 5 } }

/-- The reset set with that window as window 0. -/
def windowSet (policy : Word) : ConfigSet :=
  { ConfigSet.reset with windows := put ConfigSet.reset.windows 0 (aWindow policy) }

theorem reset_passes (it : StagedItem) : ¬ ItemFails ConfigSet.reset it := passes_of (by decide +kernel) it
theorem windowSet_passes (it : StagedItem) :
    ¬ ItemFails (windowSet 0) it ∧ ¬ ItemFails (windowSet 1) it ∧ ¬ ItemFails (windowSet 2) it :=
  ⟨passes_of (by decide +kernel) it, passes_of (by decide +kernel) it, passes_of (by decide +kernel) it⟩

theorem witness_CommitRefused :
    (∃ (s : State) (it : StagedItem), s.resetLine = false ∧ s.part ≠ .restarting ∧ ItemFails s.staged it ∧
      ∀ it', ItemFails s.staged it' → stagedNumber it ≤ stagedNumber it') ∧
    ∃ s : State, s.resetLine = false ∧ s.part = .restarting := by
  refine ⟨⟨{ State.reset with staged := { ConfigSet.reset with initiators := put ConfigSet.reset.initiators 0 ⟨2, 0⟩ } },
    .initiatorEnabled 0, rfl, by decide, ?_, fun it' _ => stagedNumber_ge it'⟩,
    ⟨{ State.reset with part := .restarting }, rfl, rfl⟩⟩
  show 1 < _
  decide +kernel

/-- With no tag OUTSTANDING but tag 0, what is asked of each op is asked of that one. -/
theorem only_tag0 {s : State} {src : Source} (h : ∀ t : TagId, s.tags[t] = if t = 0 then outstanding src else .free)
    {P : TagId → OutstandingOp → Prop}
    (h0 : P 0 { kind := .lineRead, line := 0x0A00, source := src, issueTime := 0 }) (t : TagId) (op : OutstandingOp)
    (ht : s.tags[t] = .outstanding op) : P t op := by
  rw [h] at ht
  split at ht
  · next ht0 =>
    subst ht0
    cases ht
    exact h0
  · cases ht

/-- With no tag OUTSTANDING, what is asked of each op holds. -/
theorem no_tag {s : State} (h : ∀ t : TagId, s.tags[t] = .free) {P : Prop} (t : TagId) (op : OutstandingOp)
    (ht : s.tags[t] = .outstanding op) : P := by
  rw [h] at ht
  cases ht

/-- The reference of a part whose one line entry, where it has any, is that of line 0x0A00. -/
theorem mergeRef_one {s : State} {l : List SlotId} {r : Option EntryId}
    (h : s.lines = [{ line := 0x0A00, list := l, mergeRef := r }]) (a : LineAddr) (e : EntryId)
    (ha : mergeRef s a = some e) : a = 0x0A00 ∧ r = some e := by
  by_cases hl : (0x0A00 : LineAddr) = a
  · subst hl
    rw [mergeRef, findLine, h] at ha
    exact ⟨rfl, ha⟩
  · rw [mergeRef, findLine, h, List.find?_cons_of_neg (by simpa using hl)] at ha
    cases ha

theorem drainingPart_mergeLaw : MergeLaw drainingPart :=
  ⟨by decide +kernel, by decide +kernel, fun a e ha => by
    obtain ⟨rfl, he⟩ := mergeRef_one (s := drainingPart) rfl a e ha
    cases he
    decide +kernel, by decide +kernel, by decide +kernel, fun t op e ht hs =>
    only_tag0 (P := fun t op => op.source = .entry e → drainingPart.entries[e].state = .draining ∧
      drainingPart.entries[e].memTag = some t) (src := .entry 0) (by decide +kernel) (by rintro ⟨⟩; decide +kernel) t op ht hs⟩

theorem drainingPart_storeLaw : StoreLaw drainingPart :=
  ⟨by decide +kernel, by decide +kernel, by decide +kernel, fun t op i ht hs =>
    only_tag0 (P := fun t op => op.source = .slot i → drainingPart.slots[i].memTag = some t ∧
      (drainingPart.slots[i].state = .issued ∨ drainingPart.slots[i].state = .done)) (src := .entry 0)
      (by decide +kernel) (by rintro ⟨⟩) t op ht hs,
    by decide +kernel, by decide +kernel, by decide +kernel, by decide +kernel, by decide +kernel, by decide +kernel,
    by decide +kernel, by decide +kernel, by decide +kernel⟩

/-- A posted direct write whose op is OUTSTANDING, its response delivered. -/
def postedPart (delivered : Bool) : State :=
  { issuedFor { aWrite .post with state := .done, status := some .ok, delivered } with
    responses := if delivered then [] else [.slot 0] }

theorem postedPart_mergeLaw (d : Bool) : MergeLaw (postedPart d) := by
  cases d <;>
  exact ⟨by decide +kernel, by decide +kernel, fun a e (ha : none = some e) => (nomatch ha),
    by decide +kernel, by decide +kernel, fun t op e ht hs =>
    only_tag0 (P := fun t op => op.source = .entry e → State.reset.entries[e].state = .draining ∧
      State.reset.entries[e].memTag = some t) (src := .slot 0) (by decide +kernel) (by rintro ⟨⟩) t op ht hs⟩

theorem postedPart_storeLaw (d : Bool) : StoreLaw (postedPart d) := by
  cases d <;>
  exact ⟨by decide +kernel, by decide +kernel, by decide +kernel, fun t op i ht hs =>
    only_tag0 (P := fun t op => op.source = .slot i → (postedPart _).slots[i].memTag = some t ∧
      ((postedPart _).slots[i].state = .issued ∨ (postedPart _).slots[i].state = .done)) (src := .slot 0)
      (by decide +kernel) (by rintro ⟨⟩; decide +kernel) t op ht hs,
    by decide +kernel, by decide +kernel, by decide +kernel, by decide +kernel, by decide +kernel, by decide +kernel,
    by decide +kernel, by decide +kernel, by decide +kernel⟩

theorem witness_CommitAdopts :
    (∃ (s : State) (k : ClassId) (e : EntryId) (τ : TagId) (op : OutstandingOp), s.resetLine = false ∧
      s.part ≠ .restarting ∧ (∀ it, ¬ ItemFails s.staged it) ∧ s.tags[τ] = .outstanding op ∧
      s.staged.responseTimeout.toNat = ageOf s.timeBase op.issueTime ∧ ceiling s.staged k < s.balances[k] ∧
      entryLive s.entries[e] = true ∧ s.staged.holdLimit.toNat ≤ ageOf s.timeBase s.entries[e].firstMerge) ∧
    ∃ (s : State) (τ : TagId) (op : OutstandingOp), s.resetLine = false ∧ s.part ≠ .restarting ∧
      (∀ it, ¬ ItemFails s.staged it) ∧ MergeLaw s ∧ StoreLaw s ∧ s.tags[τ] = .outstanding op ∧
      s.staged.responseTimeout.toNat = ageOf s.timeBase op.issueTime :=
  ⟨⟨{ issuedFor { aRead with state := .issued } with
      timeBase := 4096, balances := put State.reset.balances 3 9000, entries := put State.reset.entries 1 anEntry },
    3, 1, 0, _, rfl, by decide, reset_passes, rfl, by decide +kernel⟩,
    ⟨{ drainingPart with timeBase := 4096 }, 0, _, rfl, by decide, reset_passes, drainingPart_mergeLaw,
      drainingPart_storeLaw, rfl, by decide +kernel⟩⟩

theorem witness_TakeFaultMovesTheOldest :
    (∃ s : State, s.resetLine = false ∧ s.faults = []) ∧
    ∃ (s : State) (r : FaultRecord) (rest : List FaultRecord), s.resetLine = false ∧ s.faults = r :: rest ∧
      s.overflow ≤ 65535 ∧ rest.length = 7 :=
  ⟨⟨State.reset, rfl, rfl⟩,
    ⟨{ State.reset with faults := List.replicate 8 aFault, overflow := 65535 }, aFault, List.replicate 7 aFault, rfl, rfl,
      by decide, rfl⟩⟩

theorem witness_AckAlertClearsWhatItNames : ∃ s : State, s.resetLine = false ∧ s.causes.drained = true :=
  ⟨{ State.reset with causes := { EdgeCauses.reset with drained := true } }, rfl, rfl⟩

theorem witness_StatusReportsBothWords : ∃ (s : State) (n : BitVec 16), s.resetLine = false ∧ FaultListLaw s ∧
    n.toNat = 2 ∧ s.faults.length = 8 :=
  ⟨{ State.reset with faults := List.replicate 8 aFault, overflow := 65535 }, 2, rfl, by unfold FaultListLaw; decide +kernel,
    rfl, rfl⟩

theorem witness_FramesWithoutACommand : ∃ s : State, s.resetLine = false := ⟨State.reset, rfl⟩

/-! ### The request port -/

/-- The part with one request's checks failing: initiator 0 disabled, tag 9 of initiator 3 in use, the default window
disabled but over window 0, which no group may read. -/
def strictPart : State :=
  { State.reset with
    tagTable := put State.reset.tagTable 3 (put State.reset.tagTable[(3 : InitiatorId)] 9 true)
    active := { windowSet 0 with
      initiators := put ConfigSet.reset.initiators 0 ⟨0, 0⟩, dfltWindow := { enabled := 0, attrs := WindowAttrs.reset }
      windows := put ConfigSet.reset.windows 0 { aWindow 0 with attrs := { WindowAttrs.reset with access := 0xAA } } } }

/-- A window of the strict part covers no line outside 0x0A00 to 0x0AFF. -/
theorem strictPart_windows (v : WindowId) (a : LineAddr) (h : Covers strictPart.active.windows[v] a) : v = 0 := by
  have hw : ∀ v : WindowId, v ≠ 0 → strictPart.active.windows[v].enabled ≠ 1 := by decide +kernel
  by_contra hv
  exact hw v hv h.1

theorem fails_shape : FailsFirst strictPart (.read 3 9 0x28001 64 0) .errShape :=
  .inl ⟨by rw [wellShaped_iff]; decide +kernel, rfl⟩
theorem fails_initiator : FailsFirst strictPart (.read 0 1 0x28000 64 0) .errDenied :=
  .inr ⟨wellShaped_iff.2 (by decide +kernel), .inl (by decide +kernel)⟩
theorem fails_tag : FailsFirst strictPart (.fence 3 9) .errTag :=
  .inr ⟨trivial, .inr ⟨by decide +kernel, .inl (by decide +kernel)⟩⟩
theorem fails_decode : FailsFirst strictPart (.read 3 1 0x50000 64 0) .errDecode :=
  .inr ⟨wellShaped_iff.2 (by decide +kernel), .inr ⟨by decide +kernel, .inr ⟨by decide +kernel, _, carries_iff.2 rfl,
    .inl ⟨⟨fun v h => by
      obtain rfl := strictPart_windows v _ h
      revert h
      rw [covers_iff]
      decide +kernel, by decide +kernel⟩, rfl⟩⟩⟩⟩
theorem fails_access : FailsFirst strictPart (.read 3 1 0x28000 64 0) .errDenied :=
  .inr ⟨wellShaped_iff.2 (by decide +kernel), .inr ⟨by decide +kernel, .inr ⟨by decide +kernel, _, carries_iff.2 rfl,
    .inr ⟨.window 0, ⟨covers_iff.2 (by decide +kernel), fun v hv => absurd hv (Fin.not_lt_zero v)⟩,
      by rw [allows_iff]; decide +kernel, rfl⟩⟩⟩⟩

/-- A held refusal record. -/
def heldRefusal : Option Refused := some { initiator := 3, tag := 9, kind := .read, status := .errShape }

theorem witness_FailedCheckIsRefused :
    ∃ (s : State) (k : RefusalId), s.resetLine = false ∧ s.part = .running ∧ s.refusals[k] = none ∧
      (∀ j < k, s.refusals[j].isSome = true) ∧ k = 7 ∧ ∃ r st, FailsFirst s r st :=
  ⟨{ strictPart with refusals := tabulate (fun k => if k = 7 then none else heldRefusal) }, 7, rfl, rfl,
    by decide +kernel, by decide +kernel, rfl, _, _, fails_shape⟩

theorem hasRoom_of {s : State} {k : ClassId} (h : 1 ≤ freeSlots s ∧ occupancy s k < cap s.active k ∧
    (occupancy s k < reservation s.active k ∨
      (((List.finRange 6).filter (fun j => j ≠ k)).map (fun j => reservation s.active j - occupancy s j)).sum
        < freeSlots s)) : HasRoom s k := h

theorem dflt_covers (s : State) (a : LineAddr) (h : s.active = ConfigSet.reset) : CoveredBy s.active a .dflt := by
  have hw : ∀ v : WindowId, ConfigSet.reset.windows[v].enabled ≠ 1 := by decide +kernel
  rw [h]
  exact ⟨fun v hc => hw v hc.1, by decide +kernel⟩

/-- The READ of the tests as Intake takes it. -/
def readAccess : AccessReq :=
  { initiator := 3, tag := 9, kind := .read, line := 0x0A00, offset := 0, length := 64, urgency := 0, lanes := noLanes
    data := zeroLine }

theorem crowded_passes (n : Nat) : PassesChecks (crowded n) readRequest readAccess .dflt :=
  ⟨⟨wellShaped_iff.2 (by decide +kernel), by show ConfigSet.reset.initiators[(3 : InitiatorId)].enabled = 1; decide +kernel,
    by show State.reset.tagTable[(3 : InitiatorId)][(9 : ReqTag)] = false; decide +kernel⟩,
    carries_iff.2 (by decide +kernel), dflt_covers _ _ rfl,
    (allows_iff (c := ConfigSet.reset) (i := 3)).2 (by
      show accessAllowed ConfigSet.reset.dfltWindow.attrs _ _ = true; decide +kernel)⟩

theorem witness_PresentationDeferred :
    (∃ s : State, s.resetLine = false ∧ s.part ≠ .running) ∧
    (∃ (s : State) (r : Request) (st : Status), s.resetLine = false ∧ s.part = .running ∧ FailsFirst s r st ∧
      ∀ k : RefusalId, s.refusals[k].isSome = true) ∧
    (∃ (s : State) (r : Request), s.resetLine = false ∧ s.part = .running ∧ PassesFirstChecks s r ∧
      (∃ i g, r = .fence i g) ∧ ∀ k : FenceId, s.fences[k].state ≠ .free) ∧
    (∃ (s : State) (r : Request) (a : AccessReq) (w : WindowIndex), s.resetLine = false ∧ s.part = .running ∧
      PassesChecks s r a w ∧ ¬ HasRoom s (requestClass s a w)) ∧
    ∃ (s t : State) (r : Request), s.resetLine = false ∧ exec (.presentation r) s = .next t ∧ t.answer = some .defer := by
  refine ⟨⟨{ State.reset with part := .draining }, rfl, by decide⟩,
    ⟨{ strictPart with refusals := tabulate (fun _ => heldRefusal) }, _, _, rfl, rfl, fails_tag, by decide +kernel⟩,
    ⟨{ State.reset with fences := tabulate (fun _ => { FenceRecord.free with state := .completed }) }, .fence 3 9, rfl, rfl,
      ⟨trivial, by decide +kernel, by decide +kernel⟩, ⟨3, 9, rfl⟩, by decide +kernel⟩,
    ⟨crowded 48, readRequest, readAccess, .dflt, rfl, rfl, crowded_passes 48,
      fun h => absurd h.1 (by decide +kernel)⟩,
    ⟨{ State.reset with part := .draining }, _, readRequest, rfl, rfl, rfl⟩⟩

theorem witness_AccessAccepted :
    ∃ (s : State) (r : Request) (a : AccessReq) (w : WindowIndex) (i : SlotId), s.resetLine = false ∧
      s.part = .running ∧ PassesChecks s r a w ∧ HasRoom s (requestClass s a w) ∧ s.slots[i].state = .free ∧
      (∀ j < i, s.slots[j].state ≠ .free) ∧ i = 47 ∧ (lineList s a.line).Nodup ∧ i ∉ lineList s a.line :=
  ⟨crowded 47, readRequest, readAccess, .dflt, 47, rfl, rfl, crowded_passes 47,
    hasRoom_of (by decide +kernel), by decide +kernel, by decide +kernel, rfl, by decide +kernel, by decide +kernel⟩

theorem witness_FenceAccepted :
    ∃ (s : State) (i : InitiatorId) (g : ReqTag) (k : FenceId), s.resetLine = false ∧ s.part = .running ∧
      s.active.initiators[i].enabled = 1 ∧ s.tagTable[i][g] = false ∧ s.fences[k].state = .free ∧
      (∀ j < k, s.fences[j].state ≠ .free) ∧ k = 7 ∧ s.slots[(0 : SlotId)].state ≠ .free :=
  ⟨{ holding aRead anEntry with
      fences := tabulate (fun k => if k = 7 then FenceRecord.free else { FenceRecord.free with state := .completed }) },
    31, 63, 7, rfl, rfl, by decide +kernel, by decide +kernel, by decide +kernel, by decide +kernel, rfl,
    by decide +kernel⟩

theorem witness_LookupAndClass :
    ∀ p : Word, p = 0 ∨ p = 1 ∨ p = 2 →
      ∃ (s : State) (w : WindowIndex), ConfigLaw s ∧ (windowAttrs s.active w).policy = p :=
  fun p hp => ⟨{ State.reset with active := windowSet p }, .window 0,
    ⟨fun it => by rcases hp with rfl | rfl | rfl
                  · exact (windowSet_passes it).1
                  · exact (windowSet_passes it).2.1
                  · exact (windowSet_passes it).2.2, by show (0 : Nat) < 32; decide, by show (32 : Nat) ≤ 4095; decide⟩, by
    rcases hp with rfl | rfl | rfl <;> decide +kernel⟩

/-- Sequence 12.3: slot 0, a WRITE of class 0, blocks slot 1, a READ of class 4. -/
def promotion : State :=
  { holding (aWrite .post) MergeEntry.free with
    slots := put (put State.reset.slots 0 (aWrite .post)) 1 { aRead with cls := 4, effCls := some 4 }
    arrival := [0, 1], queues := put (put State.reset.queues 0 [0]) 4 [1]
    lines := [{ line := 0x0A00, list := [0, 1], mergeRef := none }] }

theorem witness_EffectiveClassIsTheLargestBlocked :
    ∃ (s : State) (a : LineAddr), (lineList s a).Nodup ∧ lineList s a = [0, 1] :=
  ⟨promotion, 0x0A00, by decide +kernel, by decide +kernel⟩

/-- 12.3: the blocking WRITE is promoted to class 4, and the rise is counted in its own class. -/
theorem test_promotion :
    let t := recompute promotion 0x0A00
    t.slots[(0 : SlotId)].effCls = some 4 ∧ t.counters.perClass[(0 : ClassId)].promotions = 1 := by decide +kernel

/-! ### Delivery -/

theorem witness_SlotResponseDelivered :
    (∃ (s : State) (i : SlotId) (rest : List Ref) (st : Status), s.resetLine = false ∧ s.responses = .slot i :: rest ∧
      s.slots[i].status = some st ∧ s.slots[i].kind = .read ∧ st = .ok ∧
      s.slots[i].offset.val + s.slots[i].length = 64 ∧ s.slots[i].memTag = none) ∧
    ∃ (s : State) (i : SlotId) (rest : List Ref) (st : Status), s.resetLine = false ∧ s.responses = .slot i :: rest ∧
      s.slots[i].status = some st ∧ s.slots[i].kind = .write ∧ s.slots[i].memTag ≠ none ∧ s.part = .draining :=
  ⟨⟨answered aRead, 0, [], .ok, rfl, rfl, by decide +kernel⟩,
    ⟨{ answered { aWrite .post with memTag := some 0 } with part := .draining }, 0, [], .ok, rfl, rfl, by decide +kernel⟩⟩

theorem witness_FenceOrRefusalDelivered :
    (∃ s : State, s.resetLine = false ∧ s.responses = []) ∧
    ∀ p : PartState,
      (∃ (s : State) (k : RefusalId) (rest : List Ref) (x : Refused), s.resetLine = false ∧
        s.responses = .refusal k :: rest ∧ s.refusals[k] = some x ∧ s.part = p) ∧
      ∃ (s : State) (k : FenceId) (rest : List Ref) (st : Status), s.resetLine = false ∧
        s.responses = .fence k :: rest ∧ s.fences[k].status = some st ∧ s.part = p :=
  ⟨⟨State.reset, rfl, rfl⟩, fun p =>
    ⟨⟨{ State.reset with
          part := p, refusals := put State.reset.refusals 7 heldRefusal, responses := [.refusal 7] }, 7, [], _, rfl, rfl,
        rfl, rfl⟩,
      ⟨{ State.reset with
          part := p, fences := put State.reset.fences 7 { FenceRecord.free with state := .completed, status := some .ok }
          responses := [.fence 7], fenceOrder := [7] }, 7, [], .ok, rfl, rfl, by cases p <;> decide +kernel, rfl⟩⟩⟩

/-! ### Grants -/

theorem witness_DemandedDrainsComeFirst :
    ∃ (s : State) (e : EntryId), (∃ τ : TagId, s.tags[τ] = .free) ∧ s.holdLine = false ∧
      s.entries[e].state = .drainPending ∧ ∃ r ∈ s.entries[e].reasons, demanded r = true :=
  ⟨holdingEntry (waitingEntry .fence), 0, ⟨23, by decide +kernel⟩, rfl, by decide +kernel,
    ⟨.fence, by decide +kernel⟩⟩

/-- The part with class 0 over its budget and the round-robin pointer at class 5. -/
def overBudget (s : State) : State :=
  { s with
    balances := put State.reset.balances 0 (-10), pointer := 5
    active := { ConfigSet.reset with
      classes := put ConfigSet.reset.classes 0 { ConfigSet.reset.classes[(0 : ClassId)] with metered := 1 } } }

/-- A choice in category 3 and a choice in category 5, and one of an urgent class. -/
theorem choose_in_budget : choose (holding aRead MergeEntry.free) = some (.slot 0 .plainRead 0 false) := by
  decide +kernel
theorem choose_over_budget :
    choose (overBudget (holding aRead MergeEntry.free)) = some (.slot 0 .plainRead 0 true) := by decide +kernel
theorem choose_urgent : choose { overBudget (holding aRead MergeEntry.free) with
    urgent := put State.reset.urgent 0 true } = some (.slot 0 .plainRead 0 false) := by decide +kernel

theorem witness_ChosenSlotIsEligible :
    ∃ (s : State) (i : SlotId) (a : Action) (e : ClassId) (rr : Bool), choose s = some (.slot i a e rr) ∧
      needsOp a = true := ⟨_, _, _, _, _, choose_in_budget, rfl⟩

/-- A choice in category 4, and a choice of nothing while every offer is held. -/
theorem choose_background : choose (holdingEntry (waitingEntry .aged)) = some (.drain 0) := by decide +kernel
theorem choose_nothing : choose { holding aRead MergeEntry.free with holdLine := true } = none := by decide +kernel

theorem witness_ClassesAreTakenInOrder :
    (∃ (s : State) (i : SlotId) (a : Action) (e : ClassId) (rr : Bool), choose s = some (.slot i a e rr) ∧ rr = false ∧
      s.urgent[e] = true) ∧
    (∃ (s : State) (i : SlotId) (a : Action) (e : ClassId) (rr : Bool), choose s = some (.slot i a e rr) ∧ rr = false ∧
      s.urgent[e] = false) ∧
    (∃ (s : State) (i : SlotId) (a : Action) (e : ClassId) (rr : Bool), choose s = some (.slot i a e rr) ∧ rr = true) ∧
    (∃ (s : State) (d : EntryId), choose s = some (.drain d) ∧ ∀ r ∈ s.entries[d].reasons, demanded r = false) ∧
    ∃ s : State, choose s = none ∧ s.arrival = [0] :=
  ⟨⟨_, _, _, _, _, choose_urgent, rfl, by decide +kernel⟩, ⟨_, _, _, _, _, choose_in_budget, rfl, by decide +kernel⟩,
    ⟨_, _, _, _, _, choose_over_budget, rfl⟩, ⟨_, _, choose_background, by decide +kernel⟩, ⟨_, choose_nothing, rfl⟩⟩

theorem witness_GrantBookkeeping :
    ∃ (s : State) (i : SlotId) (a : Action) (e : ClassId) (rr : Bool), s.resetLine = false ∧
      choose s = some (.slot i a e rr) ∧ rr = true ∧ s.active.classes[s.slots[i].cls].metered = 1 ∧
      (s.lines.map (·.line)).Nodup ∧ (lineList s s.slots[i].line).Nodup :=
  ⟨_, _, _, _, _, rfl, choose_over_budget, rfl, by decide +kernel, by decide +kernel, by decide +kernel⟩

theorem witness_ForwardAnswersFromTheEntry :
    ∃ (s : State) (i : SlotId) (m : EntryId) (e : ClassId) (rr : Bool), s.resetLine = false ∧
      choose s = some (.slot i (.forward m) e rr) :=
  ⟨holding { aRead with length := 8 } anEntry, 0, 0, 0, false, rfl, by decide +kernel⟩

theorem witness_LineReadIsIssued :
    (∃ (s : State) (i : SlotId) (e : ClassId) (rr : Bool), s.resetLine = false ∧
      choose s = some (.slot i .plainRead e rr)) ∧
    ∃ (s : State) (i : SlotId) (m : EntryId) (e : ClassId) (rr : Bool), s.resetLine = false ∧
      choose s = some (.slot i (.overlayRead m) e rr) :=
  ⟨⟨_, _, _, _, rfl, choose_in_budget⟩, ⟨holding { aRead with length := 9 } anEntry, 0, 0, 0, false, rfl, by decide +kernel⟩⟩

theorem witness_WriteIsMerged :
    (∃ (s : State) (i : SlotId) (m : EntryId) (e : ClassId) (rr : Bool), s.resetLine = false ∧
      choose s = some (.slot i (.merge m) e rr)) ∧
    ∃ (s : State) (i : SlotId) (m : EntryId) (e : ClassId) (rr : Bool), s.resetLine = false ∧
      choose s = some (.slot i (.mergeWait m) e rr) :=
  ⟨⟨holding (aWrite .merge) anEntry, 0, 0, 0, false, rfl, by decide +kernel⟩,
    ⟨holding (aWrite .confirm) anEntry, 0, 0, 0, false, rfl, by decide +kernel⟩⟩

theorem witness_EntryIsAllocated :
    ∃ (s : State) (i : SlotId) (m : EntryId) (e : ClassId) (rr : Bool), s.resetLine = false ∧
      choose s = some (.slot i (.allocate m) e rr) ∧ i ∈ lineList s s.slots[i].line :=
  ⟨holding (aWrite .merge) MergeEntry.free, 0, 0, 0, false, rfl, by decide +kernel, by decide +kernel⟩

theorem witness_DirectWriteIsIssued :
    (∃ (s : State) (i : SlotId) (e : ClassId) (rr : Bool), s.resetLine = false ∧
      choose s = some (.slot i .direct e rr) ∧ s.slots[i].mode = .post) ∧
    ∃ (s : State) (i : SlotId) (e : ClassId) (rr : Bool), s.resetLine = false ∧
      choose s = some (.slot i .direct e rr) ∧ s.slots[i].mode = .confirm :=
  ⟨⟨holding (aWrite .post) MergeEntry.free, 0, 0, false, rfl, by decide +kernel, by decide +kernel⟩,
    ⟨holding (aWrite .confirm) MergeEntry.free, 0, 0, false, rfl, by decide +kernel, by decide +kernel⟩⟩

theorem witness_DrainIsGranted :
    ∃ (s : State) (e : EntryId), s.resetLine = false ∧ choose s = some (.drain e) :=
  ⟨holdingEntry (waitingEntry .aged), 0, rfl, by decide +kernel⟩

theorem witness_GrantOnlyAsChosen :
    (∃ s : State, ∀ i a e rr, choose s ≠ some (.slot i a e rr)) ∧ ∃ s : State, ∀ e, choose s ≠ some (.drain e) := by
  have h : choose State.reset = none := by decide +kernel
  exact ⟨⟨State.reset, by simp [h]⟩, ⟨State.reset, by simp [h]⟩⟩

/-! ### The memory port and the time base -/

theorem witness_StrayCompletionIsDiscarded :
    ∃ (s : State) (n m : Nat), s.resetLine = false ∧ (24 ≤ n ∧ n = 24) ∧ ∃ τ : TagId, τ.val = m ∧ s.tags[τ] = .free ∧
      m = 23 :=
  ⟨State.reset, 24, 23, rfl, by decide, 23, rfl, by decide +kernel, rfl⟩

theorem witness_LateCompletionFreesTheTag : ∃ (s : State) (τ : TagId), s.resetLine = false ∧ s.tags[τ] = .quarantined :=
  ⟨{ State.reset with tags := tabulate (fun _ => .quarantined) }, 23, rfl, by decide +kernel⟩

theorem witness_IssuedSlotIsCompleted :
    ∃ (s : State) (τ : TagId) (op : OutstandingOp) (i : SlotId), s.resetLine = false ∧ s.tags[τ] = .outstanding op ∧
      op.source = .slot i ∧ s.slots[i].state = .issued ∧ i ∈ s.arrival :=
  ⟨issuedFor { aRead with state := .issued, snapshot := some (laneRange 0 8) }, 0, _, 0, rfl, rfl, rfl, by decide +kernel,
    by decide +kernel⟩

theorem witness_PostedWriteIsCompleted :
    ∀ (delivered : Bool) (p : PartState), ∃ (s : State) (τ : TagId) (op : OutstandingOp) (i : SlotId),
      s.resetLine = false ∧ s.part = p ∧ s.tags[τ] = .outstanding op ∧ op.source = .slot i ∧
      s.slots[i].state = .done ∧ s.slots[i].delivered = delivered :=
  fun d p => ⟨{ postedPart d with part := p }, 0, _, 0, rfl, rfl, rfl, rfl, by cases d <;> rfl, by cases d <;> rfl⟩

theorem witness_DrainIsCompleted :
    ∀ p : PartState, ∃ (s : State) (τ : TagId) (op : OutstandingOp) (e : EntryId), s.resetLine = false ∧ s.part = p ∧
      MergeLaw s ∧ s.tags[τ] = .outstanding op ∧ op.source = .entry e :=
  fun p => ⟨{ drainingPart with part := p }, 0, _, 0, rfl, rfl, drainingPart_mergeLaw, rfl, rfl⟩

theorem witness_HoldIsALevel : ∃ (s : State) (i : SlotId) (a : Action) (e : ClassId) (rr : Bool), s.holdLine = true ∧
    choose s = some (.slot i a e rr) :=
  ⟨{ holding (aWrite .merge) anEntry with holdLine := true }, 0, .merge 0, 0, false, rfl, by decide +kernel⟩

theorem witness_ResponseTimeoutIsTaken :
    (∃ (s : State) (τ : TagId) (op : OutstandingOp), s.resetLine = false ∧ s.tags[τ] = .outstanding op ∧
      ageOf s.timeBase op.issueTime + 1 = s.active.responseTimeout.toNat) ∧
    (∃ (s : State) (τ : TagId) (op : OutstandingOp) (i : SlotId), s.resetLine = false ∧ s.tags[τ] = .outstanding op ∧
      s.active.responseTimeout.toNat = ageOf s.timeBase op.issueTime ∧ op.source = .slot i ∧
      s.slots[i].state = .issued) ∧
    (∀ d : Bool, ∃ (s : State) (τ : TagId) (op : OutstandingOp) (i : SlotId), s.resetLine = false ∧
      s.tags[τ] = .outstanding op ∧ s.active.responseTimeout.toNat = ageOf s.timeBase op.issueTime ∧
      op.source = .slot i ∧ s.slots[i].state = .done ∧ s.slots[i].delivered = d ∧ MergeLaw s ∧ StoreLaw s) ∧
    ∃ (s : State) (τ : TagId) (op : OutstandingOp) (e : EntryId), s.resetLine = false ∧ s.tags[τ] = .outstanding op ∧
      s.active.responseTimeout.toNat = ageOf s.timeBase op.issueTime ∧ op.source = .entry e ∧ MergeLaw s ∧ StoreLaw s :=
  ⟨⟨{ drainingPart with timeBase := 4095 }, 0, _, rfl, rfl, by decide +kernel⟩,
    ⟨{ issuedFor { aRead with state := .issued } with timeBase := 4096 }, 0, _, 0, rfl, rfl, by decide +kernel, rfl,
      by decide +kernel⟩,
    fun d => ⟨{ postedPart d with timeBase := 4096 }, 0, _, 0, rfl, rfl, by cases d <;> decide +kernel, rfl,
      by cases d <;> decide +kernel, by cases d <;> decide +kernel, postedPart_mergeLaw d, postedPart_storeLaw d⟩,
    ⟨{ drainingPart with timeBase := 4096 }, 0, _, 0, rfl, rfl, by decide +kernel, rfl, drainingPart_mergeLaw,
      drainingPart_storeLaw⟩⟩

theorem witness_TimeBaseAdvances :
    ∃ s : State, s.resetLine = false ∧ s.active.refillPeriod.toNat = s.refillCount + 1 ∧ s.part ≠ .restarting :=
  ⟨{ State.reset with refillCount := 31 }, rfl, by decide +kernel, by decide⟩

theorem witness_EveryStepIsJudged :
    ∃ (s : State) (τ τ' : TagId) (op : OutstandingOp), s.resetLine = false ∧ s.tags[τ] = .outstanding op ∧
      s.active.responseTimeout.toNat = ageOf (s.timeBase + 1) op.issueTime ∧ isOutstanding s.tags[τ'] = false ∧
      MergeLaw s ∧ StoreLaw s :=
  ⟨{ drainingPart with timeBase := 4095 }, 0, 1, _, rfl, rfl, by decide +kernel, by decide +kernel, drainingPart_mergeLaw,
    drainingPart_storeLaw⟩

theorem witness_JudgementsOnTheirOwn :
    (∃ s : State, s.resetLine = false ∧ s.periodInForce.toNat = s.refillCount) ∧
    (∃ s : State, s.resetLine = false ∧ s.refillCount + 1 = s.periodInForce.toNat ∧ ConfigLaw s) ∧
    (∃ (s : State) (e : EntryId), s.resetLine = false ∧ entryLive s.entries[e] = true ∧
      s.active.holdLimit.toNat = ageOf s.timeBase s.entries[e].firstMerge) ∧
    ∃ (s : State) (e : EntryId), s.resetLine = false ∧ entryLive s.entries[e] = true ∧
      ¬ (entryLive s.entries[e] = true ∧ s.active.holdLimit.toNat ≤ ageOf s.timeBase s.entries[e].firstMerge) :=
  ⟨⟨{ State.reset with refillCount := 32 }, rfl, by decide +kernel⟩,
    ⟨{ State.reset with refillCount := 31 }, rfl, by decide +kernel, reset_passes, by show (31 : Nat) < 32; decide,
      by show (32 : Nat) ≤ 4095; decide⟩,
    ⟨{ holdingEntry anEntry with timeBase := 128 }, 0, rfl, by decide +kernel, by decide +kernel⟩,
    ⟨{ holdingEntry anEntry with timeBase := 127 }, 0, rfl, by decide +kernel, by decide +kernel⟩⟩

/-! ### Part states -/

theorem witness_DrainCommand :
    (∃ (s : State) (e : EntryId), s.resetLine = false ∧ s.part = .running ∧ entryLive s.entries[e] = true ∧
      emptyConditions s = false) ∧
    (∃ s : State, s.resetLine = false ∧ s.part = .running ∧ emptyConditions s = true) ∧
    ∀ p : PartState, ∃ s : State, s.resetLine = false ∧ s.part = p :=
  ⟨⟨holdingEntry anEntry, 0, rfl, rfl, by decide +kernel, by decide +kernel⟩, ⟨State.reset, rfl, rfl, by decide +kernel⟩,
    fun p => ⟨{ State.reset with part := p }, rfl, rfl⟩⟩

theorem witness_ResumeCommand : ∀ p : PartState, ∃ s : State, s.resetLine = false ∧ s.part = p :=
  fun p => ⟨{ State.reset with part := p }, rfl, rfl⟩

theorem witness_RestartCommand :
    (∃ s : State, s.resetLine = false ∧ s.part = .restarting) ∧
    (∃ (s : State) (k : FenceId), s.resetLine = false ∧ s.part ≠ .restarting ∧ s.fences[k].state = .waiting) ∧
    (∃ (s : State) (e : EntryId), s.resetLine = false ∧ s.part ≠ .restarting ∧ entryLive s.entries[e] = true) ∧
    ∃ (s : State) (e : EntryId), s.resetLine = false ∧ s.part ≠ .restarting ∧ MergeLaw s ∧
      s.entries[e].state = .draining :=
  ⟨⟨{ State.reset with part := .restarting }, rfl, rfl⟩,
    ⟨{ holding aRead anEntry with
        fences := put State.reset.fences 0 { FenceRecord.free with state := .waiting, waitSlots := [0] }
        fenceOrder := [0] }, 0, rfl, by decide +kernel, by decide +kernel⟩,
    ⟨holdingEntry anEntry, 0, rfl, by decide, by decide +kernel⟩,
    ⟨drainingPart, 0, rfl, by decide, drainingPart_mergeLaw, by decide +kernel⟩⟩

theorem witness_PartStateTransitions : ∃ (c : Instr) (s t : State), exec c s = .next t ∧ s.part = .running ∧
    t.part = .draining :=
  ⟨.drain, holdingEntry anEntry, after .drain (holdingEntry anEntry), rfl, by decide +kernel, by decide +kernel⟩

/-! ### The laws -/

/-- The reset state with a command waiting. -/
def ready (c : Instr) : State := { State.reset with pending := [c] }

theorem witness_StepKeepsCreditLaw : ∃ s t : State, CreditLaw s ∧ step s = .next t :=
  ⟨ready .timeBaseStep, _, by unfold CreditLaw; decide +kernel, rfl⟩

theorem witness_StepKeepsConfigLaw : ∃ s t : State, ConfigLaw s ∧ step s = .next t :=
  ⟨ready .commit, _, ⟨reset_passes, by show (0 : Nat) < 32; decide, by show (32 : Nat) ≤ 4095; decide⟩, rfl⟩

theorem witness_StepKeepsEntryLaw : ∃ s t : State, EntryLaw s ∧ step s = .next t ∧ s.entries[(0 : EntryId)].state ≠ .free :=
  ⟨{ holdingEntry (waitingEntry .fence) with pending := [.drainGrant] }, _,
    ⟨by decide +kernel, by decide +kernel, by decide +kernel⟩, rfl, by decide +kernel⟩

theorem witness_StepKeepsQuiescentLaw : ∃ s t : State, QuiescentLaw s ∧ step s = .next t ∧ s.part = .quiescent :=
  ⟨{ ready (.presentation readRequest) with part := .quiescent }, _, by unfold QuiescentLaw; decide +kernel, rfl, rfl⟩

theorem witness_StepKeepsFaultListLaw : ∃ s t : State, FaultListLaw s ∧ step s = .next t ∧ s.faults.length = 8 :=
  ⟨{ ready .takeFault with faults := List.replicate 8 aFault, overflow := 65535 }, _,
    by unfold FaultListLaw; decide +kernel, rfl, rfl⟩

theorem witness_StepKeepsPartLaw : ∃ s t : State, PartLaw s ∧ step s = .next t ∧ s.part = .draining :=
  ⟨{ holdingEntry (waitingEntry .drainCmd) with part := .draining, pending := [.drainGrant] }, _,
    by unfold PartLaw; decide +kernel, rfl, rfl⟩

theorem witness_OneEntryForEachLine :
    ∃ (s t : State) (e e' : EntryId), MergeLaw s ∧ step s = .next t ∧ s.entries[e].state ≠ .free ∧
      s.entries[e'].state ≠ .free ∧ s.entries[e].line = s.entries[e'].line :=
  ⟨drainingPart, _, 0, 0, drainingPart_mergeLaw, rfl, by decide +kernel, by decide +kernel, rfl⟩

theorem witness_StepKeepsStoreLaw : ∃ s t : State, StoreLaw s ∧ step s = .next t ∧ s.responses = [.slot 0] :=
  ⟨{ postedPart false with pending := [.delivery] }, _, postedPart_storeLaw false, rfl, rfl⟩

/-- A part that holds one QUEUED READ, with a grant waiting. -/
def readPart : State :=
  { holding aRead MergeEntry.free with
    tagTable := put State.reset.tagTable 0 (put State.reset.tagTable[(0 : InitiatorId)] 0 true), pending := [.grant] }

theorem readPart_slots : ∀ j : SlotId, readPart.slots[j] = if j = 0 then aRead else Slot.reset := by decide +kernel
theorem readPart_fences : ∀ k : FenceId, readPart.fences[k] = FenceRecord.free := by decide +kernel
theorem readPart_tags : ∀ (i : InitiatorId) (g : ReqTag), readPart.tagTable[i][g] = decide (i = 0 ∧ g = 0) := by
  decide +kernel

theorem readPart_storeLaw : StoreLaw readPart :=
  ⟨by decide +kernel, by decide +kernel, by decide +kernel, fun t op i ht => no_tag (by decide +kernel) t op ht,
    by decide +kernel, by decide +kernel, by decide +kernel, by decide +kernel, by decide +kernel, by decide +kernel,
    by decide +kernel, by decide +kernel, by decide +kernel⟩

theorem readPart_list (a : LineAddr) : lineList readPart a = if a = 0x0A00 then [0] else [] := by
  have h : readPart.lines = [{ line := 0x0A00, list := [0], mergeRef := none }] := rfl
  by_cases ha : a = 0x0A00
  · subst ha; rfl
  · have : ¬ (0x0A00 : LineAddr) = a := fun h => ha h.symm
    rw [if_neg ha, lineList, findLine, h, List.find?_cons_of_neg (by simpa using this)]
    rfl

theorem readPart_queueLaw : QueueLaw readPart := by
  refine ⟨by decide +kernel, by decide +kernel, fun a => ?_, fun a older x younger h => ?_, by decide +kernel⟩
  · rw [readPart_list, show readPart.arrival = [0] from rfl]
    by_cases ha : a = 0x0A00
    · subst ha; decide +kernel
    · have : ¬ aRead.line = a := fun h => ha h.symm
      simp only [List.filter_cons, List.filter_nil, readPart_slots, if_true, this, and_false, decide_false, ha, if_false,
        Bool.false_eq_true]
  · rw [readPart_list] at h
    split at h
    · obtain ⟨rfl, h⟩ | ⟨y, _, h⟩ := List.cons_eq_append_iff.1 h
      · cases h
        exact ⟨0, by decide +kernel, by decide +kernel, by simp, .inl (by decide +kernel)⟩
      · simp at h
    · simp at h

theorem readPart_tagLaw : TagLaw readPart := by
  have hs : ∀ j : SlotId, readPart.slots[j].state ≠ .free ↔ j = 0 := by decide +kernel
  have hr : aRead.delivered = false ∧ aRead.initiator = 0 ∧ aRead.tag = 0 := by decide
  intro i g
  simp only [readPart_tags, readPart_fences, decide_eq_true_eq, hs, FenceRecord.free, ne_eq, not_true_eq_false, false_and,
    and_false, exists_false, or_false, not_false_eq_true, implies_true, and_true, false_implies]
  refine ⟨⟨?_, ?_⟩, ?_⟩
  · rintro ⟨rfl, rfl⟩
    exact ⟨0, rfl, by rw [readPart_slots, if_pos rfl]; exact hr⟩
  · rintro ⟨j, rfl, _, h₁, h₂⟩
    rw [readPart_slots, if_pos rfl] at h₁ h₂
    exact ⟨h₁.symm.trans hr.2.1, h₂.symm.trans hr.2.2⟩
  · rintro j j' ⟨rfl, _⟩ ⟨rfl, _⟩
    rfl

theorem witness_StepKeepsQueueAndTagLaws : ∃ s t : State, StoreLaw s ∧ QueueLaw s ∧ TagLaw s ∧ step s = .next t ∧
    s.arrival = [0] :=
  ⟨readPart, _, readPart_storeLaw, readPart_queueLaw, readPart_tagLaw, rfl, rfl⟩

theorem witness_CapturedFieldsStay : ∃ (c : Instr) (s t : State) (i : SlotId), exec c s = .next t ∧
    s.slots[i].state ≠ .free ∧ t.slots[i].state ≠ .free :=
  ⟨.grant, holding aRead MergeEntry.free, after .grant (holding aRead MergeEntry.free), 0, rfl, by decide +kernel,
    by decide +kernel⟩

theorem witness_StateChangesOnlyBy : ∃ (c : Instr) (s t : State), exec c s = .next t ∧ c ≠ .hardReset ∧ c ≠ .commit ∧
    c ≠ .discardStaged ∧ (∀ n v, c ≠ .writeItem n v) ∧ c ≠ .takeFault ∧ c ≠ .shortFrame ∧ (∀ n, c ≠ .readItem n) ∧
    (∀ n, c ≠ .status n) ∧ c ≠ .timeBaseStep ∧ c ≠ .refillExpiry ∧ (∀ r, c ≠ .presentation r) ∧ c ≠ .delivery ∧
    c ≠ .grant ∧ c ≠ .restart ∧ c ≠ .drainGrant ∧ ∀ l, c ≠ .hold l :=
  ⟨.drain, State.reset, _, rfl, by simp⟩

end Sys2Proof.Tests
end

/-! PROOFS. Transactions on the memory path: intake, delivery, and the laws of the Request Store, of the class queues,
of the Tag Table and of quiescence. -/

namespace Sys2Proof.Machine

-- One proof at a time: elaborated in parallel they need more memory than the check has.
set_option Elab.async false

/-! ## One step is the effect of one command -/

/-- What a command does to the state where RESET does not hold it back. -/
def effect (c : Instr) (s : State) : State :=
  match c with
  | .presentation r => intake s r
  | .delivery => deliver s
  | .grant => nextSlotGrant s
  | .drainGrant => nextDrainGrant s
  | .completion tag st line => complete s tag (completionOutcome st line)
  | .hold level => setHoldLine s level
  | .timeBaseStep => timeStep s
  | .refillExpiry => judgeRefill s
  | .aged e => judgeAged s e
  | .urgentEpisode k => judgeUrgency s k
  | .responseTimeout τ => conclude s (judgeTimeout s τ)
  | .hardReset => { State.reset with resetLine := true, holdLine := s.holdLine, pending := s.pending }
  | .resetDeassert => setResetLine s false
  | .shortFrame => setShortFrame s true
  | .unknownCommand _ => answerMgmt s .badItem 0
  | .readItem item => readItem s item
  | .writeItem item v => writeItem s item v
  | .commit => commitPart s
  | .discardStaged => answerMgmt (setStaged s s.active) .done 0
  | .drain => drainPart s
  | .resume => resumePart s
  | .restart => restartPart s
  | .takeFault => takeFault s
  | .ackAlert v => ackAlert s v
  | .clearCounters => answerMgmt (setCounters s Counters.reset) .done 0
  | .status item => statusCommand s item

/-- `effect` is what `exec` answers with, unless RESET is asserted and the command leaves the state as it stands. -/
theorem exec_eq_next {c : Instr} {s t : State} (h : exec c s = .next t) :
    (s.resetLine = true ∧ t = s) ∨ t = effect c s := by
  cases c
  case hold | hardReset | resetDeassert => exact .inr (by cases h; rfl)
  all_goals exact (unlessReset_cases h).imp_right And.right

/-- With RESET released a command under `unlessReset` has its effect. -/
theorem exec_released {c : Instr} {s : State} (h : s.resetLine = false) : exec c s = .next (effect c s) := by
  cases c
  case hold | hardReset | resetDeassert => rfl
  all_goals exact unlessReset_released h _

/-- A law that does not read the queue and that every effect keeps is kept by every step. -/
theorem step_keeps {P : State → Prop} (queue : ∀ s rest, P s → P (setPending s rest))
    (keeps : ∀ c s, P s → P (effect c s)) {s t : State} (hs : P s) (h : step s = .next t) : P t := by
  unfold step at h
  split at h
  · cases h; exact hs
  · rcases exec_eq_next h with ⟨-, rfl⟩ | rfl
    · exact queue _ _ hs
    · exact keeps _ _ (queue _ _ hs)

/-! ## Which commands change which state -/

/-- Settles O60: each effect's frame, command by command. -/
theorem stateChangesOnlyBy : Obligations.StateChangesOnlyBy := by
  intro c s t h hc
  rcases exec_eq_next h with ⟨-, rfl⟩ | rfl
  · simp
  · cases c
    case hardReset => exact absurd rfl hc
    all_goals simp [effect]

/-! ## What an event makes of slots and fence records

Between the state an event begins in and the one it publishes from, a live slot advances, becomes DONE or, once its
response has been delivered, leaves; a WAITING fence completes. `StoreMoves` says so of a whole state, is closed under
composition, and is what each operation of an event is shown to meet. -/

/-- What an event other than an acceptance or a delivery makes of a slot. -/
def SlotMoves (x y : Slot) : Prop :=
  y.initiator = x.initiator ∧ y.tag = x.tag ∧ y.delivered = x.delivered ∧
  ((y.state = x.state ∧ y.status = x.status) ∨
   (x.state ≠ .free ∧ x.state ≠ .done ∧ y.state ≠ .free ∧ (y.state = .done → y.status.isSome = true)) ∨
   (x.state ≠ .free ∧ x.delivered = true ∧ y.state = .free))

/-- What an event other than an acceptance or a delivery makes of a fence record. -/
def FenceMoves (f g : FenceRecord) : Prop :=
  g.initiator = f.initiator ∧ g.tag = f.tag ∧
  ((g.state = f.state ∧ g.status = f.status) ∨
   (f.state = .waiting ∧ g.state = .completed ∧ g.status.isSome = true))

/-- The slot has not become FREE. -/
def staysIn (s t : State) (i : SlotId) : Bool := t.slots[i].state != .free || s.slots[i].state == .free

/-- Slots and fences move as above, the arrival list loses the slots that leave, and the Response Queue, the refusal
records, the order of the fences and the Tag Table stay. -/
structure StoreMoves (s t : State) : Prop where
  slots : ∀ i : SlotId, SlotMoves s.slots[i] t.slots[i]
  fences : ∀ k : FenceId, FenceMoves s.fences[k] t.fences[k]
  arrival : t.arrival = s.arrival.filter (staysIn s t)
  responses : t.responses = s.responses
  refusals : t.refusals = s.refusals
  fenceOrder : t.fenceOrder = s.fenceOrder
  tagTable : t.tagTable = s.tagTable

theorem SlotMoves.refl (x : Slot) : SlotMoves x x := ⟨rfl, rfl, rfl, .inl ⟨rfl, rfl⟩⟩

theorem FenceMoves.refl (f : FenceRecord) : FenceMoves f f := ⟨rfl, rfl, .inl ⟨rfl, rfl⟩⟩

/-- A slot that is FREE stays FREE. -/
theorem SlotMoves.free {x y : Slot} (h : SlotMoves x y) (hx : x.state = .free) : y.state = .free := by
  obtain ⟨-, -, -, ⟨hs, -⟩ | ⟨hf, -⟩ | ⟨hf, -⟩⟩ := h
  · exact hs.trans hx
  · exact absurd hx hf
  · exact absurd hx hf

theorem SlotMoves.trans {x y z : Slot} (h : SlotMoves x y) (h' : SlotMoves y z) : SlotMoves x z := by
  obtain ⟨hi, ht, hd, hs⟩ := h
  obtain ⟨hi', ht', hd', hs'⟩ := h'
  refine ⟨hi'.trans hi, ht'.trans ht, hd'.trans hd, ?_⟩
  rcases hs with ⟨hst, hsu⟩ | ⟨hf, hn, hyf, hys⟩ | ⟨hf, hdel, hyf⟩
  · rw [← hst, ← hsu, ← hd]
    exact hs'
  · rcases hs' with ⟨hst', hsu'⟩ | ⟨-, -, hzf, hzs⟩ | ⟨-, hdel', hzf⟩
    · exact .inr (.inl ⟨hf, hn, hst' ▸ hyf, fun hz => hsu' ▸ hys (hst' ▸ hz)⟩)
    · exact .inr (.inl ⟨hf, hn, hzf, hzs⟩)
    · exact .inr (.inr ⟨hf, hd ▸ hdel', hzf⟩)
  · refine .inr (.inr ⟨hf, hdel, ?_⟩)
    rcases hs' with ⟨hst', -⟩ | ⟨hf', -⟩ | ⟨hf', -⟩
    · exact hst'.trans hyf
    · exact absurd hyf hf'
    · exact absurd hyf hf'

theorem FenceMoves.trans {f g h : FenceRecord} (hf : FenceMoves f g) (hg : FenceMoves g h) : FenceMoves f h := by
  obtain ⟨hi, ht, hs⟩ := hf
  obtain ⟨hi', ht', hs'⟩ := hg
  refine ⟨hi'.trans hi, ht'.trans ht, ?_⟩
  rcases hs with ⟨hst, hsu⟩ | ⟨hw, hc, hsome⟩
  · rw [← hst, ← hsu]
    exact hs'
  · rcases hs' with ⟨hst', hsu'⟩ | ⟨hw', -⟩
    · exact .inr ⟨hw, hst'.trans hc, hsu' ▸ hsome⟩
    · rw [hc] at hw'; cases hw'

theorem StoreMoves.trans {s t u : State} (h : StoreMoves s t) (h' : StoreMoves t u) : StoreMoves s u where
  slots i := (h.slots i).trans (h'.slots i)
  fences k := (h.fences k).trans (h'.fences k)
  arrival := by
    rw [h'.arrival, h.arrival, List.filter_filter]
    refine List.filter_congr fun i _ => ?_
    have hst := (h.slots i).free
    have htu := (h'.slots i).free
    rw [Bool.eq_iff_iff]
    simp only [staysIn, Bool.and_eq_true, Bool.or_eq_true, bne_iff_ne, beq_iff_eq]
    tauto
  responses := h'.responses.trans h.responses
  refusals := h'.refusals.trans h.refusals
  fenceOrder := h'.fenceOrder.trans h.fenceOrder
  tagTable := h'.tagTable.trans h.tagTable

/-- What leaves every slot's state and the arrival list keeps the list as `StoreMoves` asks. -/
theorem filter_staysIn_of_state {s t : State} (h : ∀ i : SlotId, s.slots[i].state ≠ .free → t.slots[i].state ≠ .free) :
    s.arrival.filter (staysIn s t) = s.arrival :=
  List.filter_eq_self.2 fun i _ => by
    have := h i
    simp only [staysIn, Bool.or_eq_true, bne_iff_ne, beq_iff_eq]
    tauto

/-! ## The laws in parts -/

/-- An op's slot holds its tag (R129). -/
def OpLaw (s : State) : Prop :=
  ∀ (τ : TagId) (op : OutstandingOp) (i : SlotId), s.tags[τ] = .outstanding op → op.source = .slot i →
    s.slots[i].memTag = some τ ∧ (s.slots[i].state = .issued ∨ s.slots[i].state = .done)

/-- A waiting confirmation is WAIT_DRAIN, on one entry (R41). -/
def WaitLaw (s : State) : Prop :=
  ∀ (e : EntryId) (i : SlotId), i ∈ s.entries[e].waiting →
    s.slots[i].state = .waitDrain ∧ ∀ e' : EntryId, i ∈ s.entries[e'].waiting → e' = e

/-- The arrival list, the Response Queue and the order of the fences, with what is said of slots and records alone
(R14, R15, R18, R42, R45). -/
structure RefLaw (s : State) : Prop where
  arrival_nodup : s.arrival.Nodup
  mem_arrival : ∀ i : SlotId, i ∈ s.arrival ↔ s.slots[i].state ≠ .free
  undelivered : ∀ i : SlotId, s.slots[i].state ≠ .free → s.slots[i].state ≠ .done → s.slots[i].delivered = false
  slot_ref : ∀ i : SlotId, Ref.slot i ∈ s.responses ↔ s.slots[i].state = .done ∧ s.slots[i].delivered = false
  nodup : s.responses.Nodup
  fence_ref : ∀ k : FenceId, Ref.fence k ∈ s.responses ↔ s.fences[k].state = .completed
  refusal_ref : ∀ k : RefusalId, Ref.refusal k ∈ s.responses ↔ s.refusals[k].isSome = true
  done_status : ∀ i : SlotId, s.slots[i].state = .done → s.slots[i].status.isSome = true
  completed_status : ∀ k : FenceId, s.fences[k].state = .completed → s.fences[k].status.isSome = true
  order_nodup : s.fenceOrder.Nodup
  mem_order : ∀ k : FenceId, k ∈ s.fenceOrder ↔ s.fences[k].state ≠ .free

theorem storeLaw_iff {s : State} : StoreLaw s ↔ RefLaw s ∧ OpLaw s ∧ WaitLaw s := by
  constructor
  · rintro ⟨h₁, h₂, h₃, h₄, h₅, h₆, h₇, h₈, h₉, h₁₀, h₁₁, h₁₂, h₁₃⟩
    exact ⟨⟨h₁, h₂, h₃, h₆, h₇, h₈, h₉, h₁₀, h₁₁, h₁₂, h₁₃⟩, h₄, h₅⟩
  · rintro ⟨⟨h₁, h₂, h₃, h₆, h₇, h₈, h₉, h₁₀, h₁₁, h₁₂, h₁₃⟩, h₄, h₅⟩
    exact ⟨h₁, h₂, h₃, h₄, h₅, h₆, h₇, h₈, h₉, h₁₀, h₁₁, h₁₂, h₁₃⟩

/-! ## Publication (R15) -/

theorem slot_mem_readyRefs {s t : State} {i : SlotId} :
    Ref.slot i ∈ readyRefs s t ↔ i ∈ t.arrival ∧ t.slots[i].state = .done ∧ s.slots[i].state ≠ .done := by
  simp [readyRefs, newlyDone]

theorem fence_mem_readyRefs {s t : State} {k : FenceId} :
    Ref.fence k ∈ readyRefs s t ↔
      k ∈ t.fenceOrder ∧ t.fences[k].state = .completed ∧ s.fences[k].state ≠ .completed := by
  simp [readyRefs, newlyCompleted]

theorem refusal_not_mem_readyRefs {s t : State} {k : RefusalId} : Ref.refusal k ∉ readyRefs s t := by
  simp [readyRefs]

theorem nodup_readyRefs {s t : State} (ha : t.arrival.Nodup) (ho : t.fenceOrder.Nodup) : (readyRefs s t).Nodup := by
  refine List.nodup_append.2 ⟨?_, ?_, ?_⟩
  · exact (ha.filter _).map fun _ _ h => by cases h; rfl
  · exact (ho.filter _).map fun _ _ h => by cases h; rfl
  · intro x hx y hy
    obtain ⟨i, -, rfl⟩ := List.mem_map.1 hx
    obtain ⟨k, -, rfl⟩ := List.mem_map.1 hy
    exact fun h => nomatch h

@[simp] theorem publish_responses (s t : State) : (publish s t).responses = t.responses ++ readyRefs s t := rfl

/-- The laws of the references hold again once an event that only moves slots and fences has published. -/
theorem RefLaw.publish {s t : State} (h : RefLaw s) (m : StoreMoves s t) : RefLaw (publish s t) where
  arrival_nodup := by simpa [m.arrival] using h.arrival_nodup.filter _
  mem_arrival i := by
    have hf := (m.slots i).free
    have hi := h.mem_arrival i
    simp only [publish_frame, m.arrival, List.mem_filter, staysIn, Bool.or_eq_true, bne_iff_ne, beq_iff_eq, hi]
    tauto
  undelivered i hf hd := by
    obtain ⟨-, -, hdel, ⟨hst, -⟩ | ⟨hxf, hxd, -⟩ | ⟨-, -, hyf⟩⟩ := m.slots i
    · exact hdel.trans (h.undelivered i (hst ▸ hf) (hst ▸ hd))
    · exact hdel.trans (h.undelivered i hxf hxd)
    · exact absurd hyf hf
  slot_ref i := by
    have hmem := h.mem_arrival i
    have hf := (m.slots i).free
    obtain ⟨-, -, hdel, hs⟩ := m.slots i
    have hun := h.undelivered i
    simp only [publish_responses, publish_frame, List.mem_append, m.responses, h.slot_ref, slot_mem_readyRefs,
      m.arrival, List.mem_filter, staysIn, Bool.or_eq_true, bne_iff_ne, beq_iff_eq, hmem]
    rcases hs with ⟨hst, -⟩ | ⟨hxf, hxd, hyf, -⟩ | ⟨hxf, hxdel, hyf⟩
    · simp only [hst, hdel]
      tauto
    · have := hun hxf hxd
      simp only [hdel, this]
      tauto
    · simp only [hxdel, hdel, hyf, reduceCtorEq, and_false, false_and, or_self]
  nodup := by
    have hr : (readyRefs s t).Nodup :=
      nodup_readyRefs (m.arrival ▸ h.arrival_nodup.filter _) (m.fenceOrder ▸ h.order_nodup)
    refine List.nodup_append.2 ⟨m.responses ▸ h.nodup, hr, ?_⟩
    rintro x hx y hy rfl
    rw [m.responses] at hx
    cases x with
    | slot i => exact (slot_mem_readyRefs.1 hy).2.2 ((h.slot_ref i).1 hx).1
    | fence k => exact (fence_mem_readyRefs.1 hy).2.2 ((h.fence_ref k).1 hx)
    | refusal k => exact refusal_not_mem_readyRefs hy
  fence_ref k := by
    obtain ⟨-, -, hs⟩ := m.fences k
    simp only [publish_responses, publish_frame, List.mem_append, m.responses, h.fence_ref, fence_mem_readyRefs,
      m.fenceOrder, h.mem_order]
    rcases hs with ⟨hst, -⟩ | ⟨hw, hc, -⟩
    · simp only [hst]
      tauto
    · simp only [hw, hc, ne_eq, reduceCtorEq, not_false_eq_true, and_self, or_true]
  refusal_ref k := by simp [m.responses, m.refusals, h.refusal_ref, refusal_not_mem_readyRefs]
  done_status i hd := by
    obtain ⟨-, -, -, ⟨hst, hsu⟩ | ⟨-, -, -, hy⟩ | ⟨-, -, hyf⟩⟩ := m.slots i
    · exact hsu ▸ h.done_status i (hst ▸ hd)
    · exact hy hd
    · cases hyf.symm.trans hd
  completed_status k hc := by
    obtain ⟨-, -, ⟨hst, hsu⟩ | ⟨-, -, hy⟩⟩ := m.fences k
    · exact hsu ▸ h.completed_status k (hst ▸ hc)
    · exact hy
  order_nodup := m.fenceOrder ▸ h.order_nodup
  mem_order k := by
    obtain ⟨-, -, hs⟩ := m.fences k
    simp only [publish_frame, m.fenceOrder, h.mem_order]
    rcases hs with ⟨hst, -⟩ | ⟨hw, hc, -⟩
    · rw [hst]
    · rw [hw, hc]; simp only [ne_eq, reduceCtorEq, not_false_eq_true]

/-! ## Reading a record after an update of one -/

theorem get_setSlot (s : State) (i j : SlotId) (x : Slot) :
    (setSlot s i x).slots[j] = if j = i then x else s.slots[j] := get_put s.slots i j x

theorem get_setEntry (s : State) (e d : EntryId) (m : MergeEntry) :
    (setEntry s e m).entries[d] = if d = e then m else s.entries[d] := get_put s.entries e d m

theorem get_setFence (s : State) (k j : FenceId) (f : FenceRecord) :
    (setFence s k f).fences[j] = if j = k then f else s.fences[j] := get_put s.fences k j f

/-! ## Fence records -/

theorem settleFence_moves {f : FenceRecord} (h : f.state = .waiting) : FenceMoves f (settleFence f) := by
  unfold settleFence
  split
  · exact ⟨rfl, rfl, .inr ⟨h, rfl, rfl⟩⟩
  · exact .refl f

theorem dropSlot_moves (i : SlotId) (f : FenceRecord) : FenceMoves f (dropSlot i f) := by
  obtain ⟨hin, hout⟩ := dropSlot_spec i f
  by_cases h : f.state = .waiting ∧ i ∈ f.waitSlots
  · rw [hin h.1 h.2]
    exact settleFence_moves (f := { f with waitSlots := without i f.waitSlots }) h.1
  · rw [hout h]
    exact .refl f

theorem dropFence_moves (k : FenceId) (f : FenceRecord) : FenceMoves f (dropFence k f) := by
  obtain ⟨hin, hout⟩ := dropFence_spec k f
  by_cases h : f.state = .waiting ∧ k ∈ f.waitFences
  · rw [hin h.1 h.2]
    exact settleFence_moves (f := { f with waitFences := without k f.waitFences }) h.1
  · rw [hout h]
    exact .refl f

theorem dropEntry_moves (e : EntryId) (f : FenceRecord) : FenceMoves f (dropEntry e f) := by
  obtain ⟨hin, hout⟩ := dropEntry_spec e f
  by_cases h : f.state = .waiting ∧ e ∈ f.waitEntries
  · rw [hin h.1 h.2]
    exact settleFence_moves (f := { f with waitEntries := without e f.waitEntries }) h.1
  · rw [hout h]
    exact .refl f

theorem fences_mapFences_moves {s : State} {f : FenceRecord → FenceRecord} (h : ∀ x, FenceMoves x (f x)) (k : FenceId) :
    FenceMoves s.fences[k] (mapFences s f).fences[k] := by
  have hk : (mapFences s f).fences[k] = f s.fences[k] := get_mapFences s f k k.isLt
  exact hk ▸ h _

/-- A change of a fence record that reaches neither what identifies it nor its standing. -/
theorem FenceMoves.ite {p : Prop} [Decidable p] {f g : FenceRecord} (h : FenceMoves f g) :
    FenceMoves f (if p then g else f) := by
  split
  · exact h
  · exact .refl f

/-! ## Moves of the store -/

/-- What changes fence records only, each by a move. -/
theorem StoreMoves.of_fences {s t : State} (fences : ∀ k : FenceId, FenceMoves s.fences[k] t.fences[k])
    (slots : t.slots = s.slots := by simp) (arrival : t.arrival = s.arrival := by simp)
    (responses : t.responses = s.responses := by simp) (refusals : t.refusals = s.refusals := by simp)
    (fenceOrder : t.fenceOrder = s.fenceOrder := by simp) (tagTable : t.tagTable = s.tagTable := by simp) :
    StoreMoves s t where
  slots i := by rw [slots]; exact .refl _
  fences := fences
  arrival := by rw [arrival, filter_staysIn_of_state fun i h => by rwa [slots]]
  responses := responses
  refusals := refusals
  fenceOrder := fenceOrder
  tagTable := tagTable

/-- What changes nothing that the laws of the store read. -/
theorem StoreMoves.of_eq {s t : State} (slots : t.slots = s.slots := by simp) (fences : t.fences = s.fences := by simp)
    (arrival : t.arrival = s.arrival := by simp) (responses : t.responses = s.responses := by simp)
    (refusals : t.refusals = s.refusals := by simp) (fenceOrder : t.fenceOrder = s.fenceOrder := by simp)
    (tagTable : t.tagTable = s.tagTable := by simp) : StoreMoves s t :=
  .of_fences (fun k => by rw [fences]; exact .refl _) slots arrival responses refusals fenceOrder tagTable

/-- What changes slots only, each by a move that keeps a live slot live. -/
theorem StoreMoves.of_slots {s t : State} (slots : ∀ i : SlotId, SlotMoves s.slots[i] t.slots[i])
    (live : ∀ i : SlotId, s.slots[i].state ≠ .free → t.slots[i].state ≠ .free)
    (fences : t.fences = s.fences := by simp) (arrival : t.arrival = s.arrival := by simp)
    (responses : t.responses = s.responses := by simp) (refusals : t.refusals = s.refusals := by simp)
    (fenceOrder : t.fenceOrder = s.fenceOrder := by simp) (tagTable : t.tagTable = s.tagTable := by simp) :
    StoreMoves s t where
  slots := slots
  fences k := by rw [fences]; exact .refl _
  arrival := by rw [arrival, filter_staysIn_of_state live]
  responses := responses
  refusals := refusals
  fenceOrder := fenceOrder
  tagTable := tagTable

theorem StoreMoves.refl (s : State) : StoreMoves s s := .of_eq rfl rfl rfl rfl rfl rfl rfl

theorem setSlot_moves {s : State} {i : SlotId} {x : Slot} (h : SlotMoves s.slots[i] x)
    (live : s.slots[i].state ≠ .free → x.state ≠ .free) : StoreMoves s (setSlot s i x) :=
  .of_slots
    (fun j => by
      rw [get_setSlot]
      split
      · next hj => exact hj ▸ h
      · exact .refl _)
    (fun j hj => by
      rw [get_setSlot]
      split
      · next he => exact live (he ▸ hj)
      · exact hj)

theorem freeSlot_moves {s : State} {i : SlotId} (live : s.slots[i].state ≠ .free)
    (delivered : s.slots[i].delivered = true) : StoreMoves s (freeSlot s i) := by
  obtain ⟨hs, ha, hf⟩ := freeSlot_spec s i
  have hother {j : SlotId} (h : j ≠ i) : (freeSlot s i).slots[j] = s.slots[j] := by rw [hs, get_put_ne _ _ h]
  have hself : (freeSlot s i).slots[i] = { s.slots[i] with state := .free } := by rw [hs, get_put_self]
  refine ⟨fun j => ?_, fun k => hf k ▸ dropSlot_moves i _, ?_, by simp, by simp, by simp, by simp⟩
  · by_cases hj : j = i
    · subst hj
      rw [hself]
      exact ⟨rfl, rfl, rfl, .inr (.inr ⟨live, delivered, rfl⟩)⟩
    · rw [hother hj]
      exact .refl _
  · rw [ha, without]
    refine List.filter_congr fun j _ => ?_
    rw [Bool.eq_iff_iff]
    simp only [staysIn, Bool.or_eq_true, bne_iff_ne, beq_iff_eq]
    by_cases hj : j = i
    · subst hj
      rw [hself]
      tauto
    · rw [hother hj]
      tauto

theorem mapFences_moves {s : State} {f : FenceRecord → FenceRecord} (h : ∀ x, FenceMoves x (f x)) :
    StoreMoves s (mapFences s f) := .of_fences (fences_mapFences_moves h)

theorem handRecord_moves (s : State) (r : FaultRecord) : StoreMoves s (handRecord s r) := .of_eq

theorem markSlotFences_moves (s : State) (i : SlotId) : StoreMoves s (markSlotFences s i) :=
  mapFences_moves fun _ => FenceMoves.ite ⟨rfl, rfl, .inl ⟨rfl, rfl⟩⟩

theorem markEntryFences_moves (s : State) (e : EntryId) : StoreMoves s (markEntryFences s e) :=
  mapFences_moves fun _ => FenceMoves.ite ⟨rfl, rfl, .inl ⟨rfl, rfl⟩⟩

theorem recordSlotLoss_moves (s : State) (i : SlotId) (o : OpOutcome) : StoreMoves s (recordSlotLoss s i o) := by
  unfold recordSlotLoss
  split
  · exact (handRecord_moves s _).trans (markSlotFences_moves _ i)
  · exact .refl s

theorem recordEntryLoss_moves (s : State) (e : EntryId) (l : LossKind) : StoreMoves s (recordEntryLoss s e l) :=
  (handRecord_moves s _).trans (markEntryFences_moves _ e)

theorem departEntry_moves (s : State) (e : EntryId) : StoreMoves s (departEntry s e) :=
  mapFences_moves (dropEntry_moves e)

theorem freeEntry_moves (s : State) (e : EntryId) : StoreMoves s (freeEntry s e) := by
  have hset : StoreMoves s (setEntry s e MergeEntry.free) := .of_eq
  unfold freeEntry
  refine (hset.trans (departEntry_moves _ e)).trans ?_
  exact .of_eq

/-! ## Resolution of ops -/

/-- The slot, DONE with a status. -/
def doneWith (st : Status) (x : Slot) : Slot := { x with state := .done, status := some st }

/-- Slots that become DONE with one status: each slot of the list, and no other. -/
theorem get_foldl_finishWaiting (st : Status) (l : List SlotId) (s : State) (j : SlotId) :
    (l.foldl (finishWaiting st) s).slots[j] =
      if j ∈ l then doneWith st s.slots[j] else s.slots[j] := by
  induction l generalizing s with
  | nil => simp
  | cons i l ih =>
    have hi : (finishWaiting st s i).slots[j] =
        if j = i then doneWith st s.slots[j] else s.slots[j] := by
      rw [finishWaiting, get_setSlot]
      split
      · next h => rw [h]; rfl
      · rfl
    rw [List.foldl_cons, ih, hi]
    by_cases h : j = i
    · simp only [h, List.mem_cons, true_or, if_true]
      split <;> rfl
    · simp only [h, List.mem_cons, false_or, if_false]

theorem answerWaiting_slots (s : State) (e : EntryId) (st : Status) (j : SlotId) :
    (answerWaiting s e st).slots[j] =
      if j ∈ s.entries[e].waiting then doneWith st s.slots[j] else s.slots[j] :=
  get_foldl_finishWaiting st _ s j

theorem answerWaiting_waiting (s : State) (e d : EntryId) (st : Status) :
    (answerWaiting s e st).entries[d].waiting = if d = e then [] else s.entries[d].waiting := by
  have hf : (s.entries[e].waiting.foldl (finishWaiting st) s).entries = s.entries :=
    foldl_eq State.entries (fun t i => by simp) _ s
  rw [answerWaiting, get_setEntry, hf]
  split <;> rfl

/-- The confirmations of an entry move, where each of them waits. -/
theorem answerWaiting_moves {s : State} (hw : WaitLaw s) (e : EntryId) (st : Status) :
    StoreMoves s (answerWaiting s e st) :=
  .of_slots
    (fun j => by
      rw [answerWaiting_slots]
      split
      · next hj => exact ⟨rfl, rfl, rfl, .inr (.inl (by rw [(hw e j hj).1]; simp [doneWith]))⟩
      · exact .refl _)
    (fun j hj => by
      rw [answerWaiting_slots]
      split
      · simp [doneWith]
      · exact hj)

theorem resolveEntry_moves {s : State} (hw : WaitLaw s) (e : EntryId) (o : OpOutcome) :
    StoreMoves s (resolveEntry s e o) := by
  refine ((answerWaiting_moves hw e (writeStatus o)).trans ?_).trans (freeEntry_moves _ e)
  split
  · exact recordEntryLoss_moves _ e _
  · exact .refl _

theorem releaseTag_moves {s : State} {i : SlotId} (live : s.slots[i].state ≠ .free) :
    StoreMoves s (releaseTag s i) := by
  have htag : StoreMoves s (setSlot s i { s.slots[i] with memTag := none }) :=
    setSlot_moves ⟨rfl, rfl, rfl, .inl ⟨rfl, rfl⟩⟩ id
  unfold releaseTag
  split
  · next hd =>
    have hi : (setSlot s i { s.slots[i] with memTag := none }).slots[i] = { s.slots[i] with memTag := none } :=
      get_put_self ..
    exact htag.trans (freeSlot_moves (by rwa [hi]) (by rwa [hi]))
  · exact htag

/-- An op's slot moves at the op's resolution. -/
theorem resolveSlot_moves {s : State} {i : SlotId} (h : s.slots[i].state = .issued ∨ s.slots[i].state = .done)
    (o : OpOutcome) : StoreMoves s (resolveSlot s i o) := by
  have hsame : (recordSlotLoss s i o).slots = s.slots := by simp
  unfold resolveSlot
  split
  · next hd =>
    refine (recordSlotLoss_moves s i o).trans (releaseTag_moves ?_)
    rw [hsame, beq_iff_eq.1 hd]
    simp
  · next hd =>
    have hi : s.slots[i].state = .issued := h.resolve_right (by simpa using hd)
    exact setSlot_moves ⟨rfl, rfl, rfl, .inr (.inl (by rw [hi]; simp))⟩ (by simp)

theorem resolveSource_moves {s : State} (ho : OpLaw s) (hw : WaitLaw s) {τ : TagId} {op : OutstandingOp}
    (hop : s.tags[τ] = .outstanding op) (o : OpOutcome) : StoreMoves s (resolveSource s op.source o) := by
  unfold resolveSource
  split
  · next i hi => exact resolveSlot_moves (ho τ op i hop hi).2 o
  · next e _ => exact resolveEntry_moves hw e o

/-! ## Waiting confirmations -/

@[simp] theorem withReason_waiting (m : MergeEntry) (r : Reason) (now : Time) :
    (withReason m r now).waiting = m.waiting := by
  rw [withReason_frame]

theorem addReason_waiting (s : State) (e d : EntryId) (r : Reason) :
    (addReason s e r).entries[d].waiting = s.entries[d].waiting := by
  rw [addReason, get_setEntry]
  split
  · next h => rw [h, withReason_waiting]
  · rfl

theorem judgePressure_waiting (s : State) (d : EntryId) :
    (judgePressure s).entries[d].waiting = s.entries[d].waiting := by
  obtain ⟨e, -, -, h⟩ | ⟨-, h⟩ := judgePressure_spec s
  · rw [h, addReason_waiting]
  · rw [h]

theorem judgeAged_waiting (s : State) (e d : EntryId) : (judgeAged s e).entries[d].waiting = s.entries[d].waiting := by
  unfold judgeAged
  split
  · exact addReason_waiting ..
  · rfl

theorem judgeAllAged_waiting (s : State) (d : EntryId) :
    (judgeAllAged s).entries[d].waiting = s.entries[d].waiting :=
  forEach_eq (fun t => t.entries[d].waiting) (fun t e => judgeAged_waiting t e d) s

theorem freeEntry_waiting (s : State) (e d : EntryId) :
    (freeEntry s e).entries[d].waiting = if d = e then [] else s.entries[d].waiting := by
  rw [freeEntry, judgePressure_waiting]
  simp only [tidyLine_frame, setMergeRef_frame, departEntry_frame, get_setEntry]
  split <;> rfl

theorem resolveEntry_waiting (s : State) (e d : EntryId) (o : OpOutcome) :
    (resolveEntry s e o).entries[d].waiting = if d = e then [] else s.entries[d].waiting := by
  rw [resolveEntry, freeEntry_waiting]
  split
  · rfl
  · next hd =>
    have hw := answerWaiting_waiting s e d (writeStatus o)
    rw [if_neg hd] at hw
    split
    · simpa only [recordEntryLoss_frame] using hw
    · exact hw

/-- A confirmation that still waits after an op's resolution waited before it, on another entry than the op's. -/
theorem mem_waiting_of_resolveSource {s : State} {src : Source} {o : OpOutcome} {d : EntryId} {j : SlotId}
    (h : j ∈ (resolveSource s src o).entries[d].waiting) : j ∈ s.entries[d].waiting ∧ src ≠ .entry d := by
  cases src with
  | slot i => exact ⟨by simpa only [resolveSource, resolveSlot_frame] using h, nofun⟩
  | entry e =>
    have hw := resolveEntry_waiting s e d o
    rw [resolveSource, hw] at h
    split at h
    · simp at h
    · next hd => exact ⟨h, fun he => hd (by cases he; rfl)⟩

/-! ## The slots an op's resolution reaches -/

theorem releaseTag_slots (s : State) (i j : SlotId) :
    (releaseTag s i).slots[j] = if j = i then
        { s.slots[i] with memTag := none, state := if s.slots[i].delivered then .free else s.slots[i].state }
      else s.slots[j] := by
  unfold releaseTag
  by_cases hd : s.slots[i].delivered = true
  · simp only [hd, if_true, (freeSlot_spec _ i).1, get_put, get_setSlot]
    split <;> rfl
  · simp only [hd, Bool.false_eq_true, if_false, get_setSlot]

theorem resolveEntry_slots (s : State) (e : EntryId) (o : OpOutcome) (j : SlotId) :
    (resolveEntry s e o).slots[j] =
      if j ∈ s.entries[e].waiting then doneWith (writeStatus o) s.slots[j] else s.slots[j] := by
  have h : (resolveEntry s e o).slots = (answerWaiting s e (writeStatus o)).slots := by
    simp only [resolveEntry, freeEntry_frame]
    split
    · simp only [recordEntryLoss_frame]
    · rfl
  rw [h, answerWaiting_slots]

theorem resolveSlot_slots_ne (s : State) {i j : SlotId} (o : OpOutcome) (h : j ≠ i) :
    (resolveSlot s i o).slots[j] = s.slots[j] := by
  unfold resolveSlot
  split
  · rw [releaseTag_slots, if_neg h]
    simp only [recordSlotLoss_frame]
  · rw [resolveIssued, get_setSlot, if_neg h]

/-- A resolution reaches the op's own slot, or the confirmations that wait on its entry, and no other slot. -/
theorem resolveSource_slots_ne {s : State} {src : Source} {j : SlotId} (o : OpOutcome) (hs : src ≠ .slot j)
    (he : ∀ e, src = .entry e → j ∉ s.entries[e].waiting) : (resolveSource s src o).slots[j] = s.slots[j] := by
  cases src with
  | slot i => exact resolveSlot_slots_ne s o fun h => hs (h ▸ rfl)
  | entry e => exact (resolveEntry_slots s e o j).trans (if_neg (he e rfl))

/-! ## The op and waiting laws after a resolution -/

/-- An op whose tag is given up at its resolution leaves every other op with its slot. -/
theorem OpLaw.resolve {s : State} (ho : OpLaw s) (hw : WaitLaw s) {τ : TagId} {op : OutstandingOp}
    (hop : s.tags[τ] = .outstanding op) (o : OpOutcome) {x : TagRecord} (hx : ∀ op', x ≠ .outstanding op') {t : State}
    (hslots : t.slots = (resolveSource s op.source o).slots) (htags : t.tags = put s.tags τ x) : OpLaw t := by
  intro σ op' j hσ hsrc
  rw [htags, get_put] at hσ
  split at hσ
  · exact absurd hσ (hx op')
  · next hne =>
    obtain ⟨htag, hst⟩ := ho σ op' j hσ hsrc
    have hj : t.slots[j] = s.slots[j] := by
      rw [hslots]
      refine resolveSource_slots_ne o (fun h => hne ?_) fun e _ hm => ?_
      · have := (ho τ op j hop h).1
        exact Option.some.inj (htag.symm.trans this)
      · have := (hw e j hm).1
        rw [this] at hst
        simp at hst
    rw [hj]
    exact ⟨htag, hst⟩

/-- What waits on other entries still waits. -/
theorem WaitLaw.resolve {s : State} (ho : OpLaw s) (hw : WaitLaw s) {τ : TagId} {op : OutstandingOp}
    (hop : s.tags[τ] = .outstanding op) (o : OpOutcome) {t : State}
    (hslots : t.slots = (resolveSource s op.source o).slots)
    (hentries : t.entries = (resolveSource s op.source o).entries) : WaitLaw t := by
  intro d j hj
  rw [hentries] at hj
  obtain ⟨hmem, hsrc⟩ := mem_waiting_of_resolveSource hj
  obtain ⟨hst, huniq⟩ := hw d j hmem
  have hj : t.slots[j] = s.slots[j] := by
    rw [hslots]
    refine resolveSource_slots_ne o (fun h => ?_) fun e he hm => ?_
    · have := (ho τ op j hop h).2
      rw [hst] at this
      simp at this
    · rw [huniq e hm] at he
      exact hsrc he
  refine ⟨hj ▸ hst, fun e' he' => huniq e' ?_⟩
  rw [hentries] at he'
  exact (mem_waiting_of_resolveSource he').1

/-! ## What the class queues and line lists rest on -/

/-- A slot keeps what its place in a queue and a line list rests on. -/
def SameQueueing (x y : Slot) : Prop :=
  (y.state = .queued ↔ x.state = .queued) ∧ y.kind = x.kind ∧ y.cls = x.cls ∧ y.line = x.line ∧ y.effCls = x.effCls

/-- The class queues and the line lists stay, with what they rest on of each slot. -/
structure QueueKept (s t : State) : Prop where
  slots : ∀ i : SlotId, SameQueueing s.slots[i] t.slots[i]
  queues : t.queues = s.queues
  lines : (s.lines.map (·.line)).Nodup → (t.lines.map (·.line)).Nodup ∧ ∀ a, lineList t a = lineList s a

theorem SameQueueing.refl (x : Slot) : SameQueueing x x := ⟨.rfl, rfl, rfl, rfl, rfl⟩

theorem SameQueueing.trans {x y z : Slot} (h : SameQueueing x y) (h' : SameQueueing y z) : SameQueueing x z := by
  obtain ⟨hst, hk, hc, hl, he⟩ := h
  obtain ⟨hst', hk', hc', hl', he'⟩ := h'
  exact ⟨hst'.trans hst, hk'.trans hk, hc'.trans hc, hl'.trans hl, he'.trans he⟩

theorem QueueKept.trans {s t u : State} (h : QueueKept s t) (h' : QueueKept t u) : QueueKept s u where
  slots i := (h.slots i).trans (h'.slots i)
  queues := h'.queues.trans h.queues
  lines hs := by
    obtain ⟨ht, hl⟩ := h.lines hs
    obtain ⟨hu, hl'⟩ := h'.lines ht
    exact ⟨hu, fun a => (hl' a).trans (hl a)⟩

theorem lineList_congr {s t : State} (h : t.lines = s.lines) (a : LineAddr) : lineList t a = lineList s a := by
  rw [lineList, lineList, findLine, findLine, h]

/-- What leaves the queues and the lines, and of each slot what its place in them rests on. -/
theorem QueueKept.of_slots {s t : State} (slots : ∀ i : SlotId, SameQueueing s.slots[i] t.slots[i])
    (queues : t.queues = s.queues := by simp) (lines : t.lines = s.lines := by simp) : QueueKept s t :=
  ⟨slots, queues, fun h => ⟨lines ▸ h, lineList_congr lines⟩⟩

theorem QueueKept.of_eq {s t : State} (slots : t.slots = s.slots := by simp) (queues : t.queues = s.queues := by simp)
    (lines : t.lines = s.lines := by simp) : QueueKept s t :=
  .of_slots (fun i => by rw [slots]; exact .refl _) queues lines

theorem QueueKept.refl (s : State) : QueueKept s s := .of_eq rfl rfl rfl

/-! ## Line entries that lose a reference -/

theorem lineList_eq_of_findLine {s t : State} {a : LineAddr} (h : findLine t a = findLine s a) :
    lineList t a = lineList s a := by rw [lineList, lineList, h]

theorem map_line_updateLine (s : State) (a : LineAddr) {f : LineEntry → LineEntry} (hf : ∀ l, (f l).line = l.line) :
    (updateLine s a f).lines.map (·.line) = s.lines.map (·.line) := by
  simp only [updateLine, setLines_lines, List.map_map]
  refine List.map_congr_left fun l _ => ?_
  simp only [Function.comp]
  split
  · exact hf l
  · rfl

theorem setMergeRef_lists (s : State) (a b : LineAddr) (r : Option EntryId) :
    lineList (setMergeRef s a r) b = lineList s b := by
  obtain ⟨hself, -, hother⟩ := setMergeRef_spec s a r
  by_cases h : b = a
  · rw [h, hself]
  · exact lineList_eq_of_findLine (hother b h)

/-- The removal of an idle line entry, where the line has one entry at most, leaves every line's list. -/
theorem tidyLine_lists {s : State} (h : (s.lines.map (·.line)).Nodup) (a b : LineAddr) :
    lineList (tidyLine s a) b = lineList s b := by
  by_cases hb : b = a
  · subst hb
    simp only [lineList, findLine, tidyLine, setLines_lines]
    generalize s.lines = ls at h
    induction ls with
    | nil => rfl
    | cons l ls ih =>
      obtain ⟨hnot, hnd⟩ := List.nodup_cons.1 (List.map_cons ▸ h)
      have ih := ih hnd
      by_cases hl : l.line = b
      · have hnone (p : LineEntry → Bool) : (ls.filter p).find? (·.line == b) = none :=
          List.find?_eq_none.2 fun x hx => by
            have : x.line ∈ ls.map (·.line) := List.mem_map_of_mem (List.mem_of_mem_filter hx)
            rw [beq_iff_eq]
            exact fun h => hnot (hl.trans h.symm ▸ this)
        rw [List.filter_cons, List.find?_cons_of_pos (by simpa using hl)]
        split
        · rw [List.find?_cons_of_pos (by simpa using hl)]
        · next hidle =>
          have hempty : l.list = [] := by
            by_contra hne
            exact hidle (by simp [hne])
          rw [hnone]
          exact hempty.symm
      · rw [List.filter_cons_of_pos (by simp [hl]), List.find?_cons_of_neg (by simpa using hl),
          List.find?_cons_of_neg (by simpa using hl), ih]
  · exact lineList_eq_of_findLine (findLine_tidyLine_ne s hb)

theorem setMergeRef_kept (s : State) (a : LineAddr) (r : Option EntryId) : QueueKept s (setMergeRef s a r) where
  slots i := by simp only [setMergeRef_frame]; exact .refl _
  queues := by simp
  lines h := ⟨by rwa [setMergeRef, map_line_updateLine s a (by intro l; rfl)], fun b => setMergeRef_lists s a b r⟩

theorem tidyLine_kept (s : State) (a : LineAddr) : QueueKept s (tidyLine s a) where
  slots i := by simp only [tidyLine_frame]; exact .refl _
  queues := by simp
  lines h := ⟨h.sublist (List.filter_sublist.map _), tidyLine_lists h a⟩

theorem freeEntry_kept (s : State) (e : EntryId) : QueueKept s (freeEntry s e) := by
  have hset : QueueKept s (departEntry (setEntry s e MergeEntry.free) e) := .of_eq
  have hpressure (t : State) : QueueKept t (judgePressure t) := .of_eq
  exact ((hset.trans (setMergeRef_kept _ s.entries[e].line none)).trans (tidyLine_kept _ s.entries[e].line)).trans
    (hpressure _)

/-- No slot that an op's resolution reaches is QUEUED, and none becomes so. -/
theorem resolveSource_kept {s : State} (ho : OpLaw s) (hw : WaitLaw s) {τ : TagId} {op : OutstandingOp}
    (hop : s.tags[τ] = .outstanding op) (o : OpOutcome) : QueueKept s (resolveSource s op.source o) := by
  unfold resolveSource
  split
  · next i hi =>
    have hst := (ho τ op i hop hi).2
    refine .of_slots fun j => ?_
    by_cases hj : j = i
    · subst hj
      unfold resolveSlot
      split
      · next hd =>
        rw [releaseTag_slots, if_pos rfl]
        simp only [recordSlotLoss_frame]
        refine ⟨?_, rfl, rfl, rfl, rfl⟩
        rw [beq_iff_eq.1 hd]
        split <;> simp
      · rw [resolveIssued, get_setSlot, if_pos rfl]
        refine ⟨?_, rfl, rfl, rfl, rfl⟩
        rcases hst with hst | hst <;> simp only [hst, reduceCtorEq]
    · rw [resolveSlot_slots_ne s o hj]
      exact .refl _
  · next e _ =>
    have hloss (t : State) (k : LossKind) : QueueKept t (recordEntryLoss t e k) := .of_eq
    have hans : QueueKept s (answerWaiting s e (writeStatus o)) := by
      refine .of_slots fun j => ?_
      rw [answerWaiting_slots]
      split
      · next hj => exact ⟨by rw [(hw e j hj).1]; simp [doneWith], rfl, rfl, rfl, rfl⟩
      · exact .refl _
    refine (hans.trans ?_).trans (freeEntry_kept _ e)
    split
    · exact hloss _ _
    · exact .refl _

/-! ## Moves keep the laws of the queues and of the tags -/

/-- A live slot whose response has not been delivered holds the tag (R12). -/
def SlotHolds (s : State) (i : InitiatorId) (g : ReqTag) (j : SlotId) : Prop :=
  s.slots[j].state ≠ .free ∧ s.slots[j].delivered = false ∧ s.slots[j].initiator = i ∧ s.slots[j].tag = g

/-- A held fence record holds the tag (R12). -/
def FenceHolds (s : State) (i : InitiatorId) (g : ReqTag) (k : FenceId) : Prop :=
  s.fences[k].state ≠ .free ∧ s.fences[k].initiator = i ∧ s.fences[k].tag = g

/-- The law of tag uniqueness for one tag of one initiator. -/
def TagHeldOnce (s : State) (i : InitiatorId) (g : ReqTag) : Prop :=
  (s.tagTable[i][g] = true ↔ (∃ j, SlotHolds s i g j) ∨ ∃ k, FenceHolds s i g k) ∧
  (∀ j j', SlotHolds s i g j → SlotHolds s i g j' → j = j') ∧
  (∀ k k', FenceHolds s i g k → FenceHolds s i g k' → k = k') ∧ ∀ j k, ¬ (SlotHolds s i g j ∧ FenceHolds s i g k)

theorem tagLaw_iff {s : State} : TagLaw s ↔ ∀ i g, TagHeldOnce s i g := .rfl

/-- The law for one tag carries over where the same slots and fences hold it. -/
theorem TagHeldOnce.congr {s t : State} {i : InitiatorId} {g : ReqTag} (h : TagHeldOnce s i g)
    (table : t.tagTable[i][g] = s.tagTable[i][g]) (slots : ∀ j, SlotHolds t i g j ↔ SlotHolds s i g j)
    (fences : ∀ k, FenceHolds t i g k ↔ FenceHolds s i g k) : TagHeldOnce t i g := by
  unfold TagHeldOnce
  simp only [table, slots, fences]
  exact h

theorem SlotMoves.holds {x y : Slot} (h : SlotMoves x y) :
    (y.state ≠ .free ∧ y.delivered = false) ↔ (x.state ≠ .free ∧ x.delivered = false) := by
  obtain ⟨-, -, hd, ⟨hs, -⟩ | ⟨hx, -, hy, -⟩ | ⟨-, hx, hy⟩⟩ := h
  · rw [hs, hd]
  · simp only [hx, hy, hd, ne_eq, not_false_eq_true, true_and]
  · simp only [hx, hy, ne_eq, not_true_eq_false, false_and, reduceCtorEq, and_false]

theorem FenceMoves.held {f g : FenceRecord} (h : FenceMoves f g) : g.state ≠ .free ↔ f.state ≠ .free := by
  obtain ⟨-, -, ⟨hs, -⟩ | ⟨hw, hc, -⟩⟩ := h
  · rw [hs]
  · simp [hw, hc]

theorem TagLaw.moves {s t : State} (h : TagLaw s) (m : StoreMoves s t) : TagLaw t := by
  intro i g
  refine (tagLaw_iff.1 h i g).congr (by rw [m.tagTable]) (fun j => ?_) fun k => ?_
  · obtain ⟨hi, hg, -⟩ := m.slots j
    have hh := (m.slots j).holds
    simp only [SlotHolds, hi, hg, ← and_assoc, hh]
  · obtain ⟨hi, hg, -⟩ := m.fences k
    have hh := (m.fences k).held
    simp only [FenceHolds, hi, hg, hh]

/-- The QUEUED slots that a test selects stand in the arrival list as before. -/
theorem filter_queued_eq {s t : State} (arrival : t.arrival = s.arrival.filter (staysIn s t))
    {p q : SlotId → Prop} [DecidablePred p] [DecidablePred q]
    (hpq : ∀ i : SlotId, (t.slots[i].state = .queued ∧ q i) ↔ (s.slots[i].state = .queued ∧ p i)) :
    t.arrival.filter (fun i => decide (t.slots[i].state = .queued ∧ q i)) =
      s.arrival.filter (fun i => decide (s.slots[i].state = .queued ∧ p i)) := by
  rw [arrival, List.filter_filter]
  refine List.filter_congr fun i _ => ?_
  rw [Bool.eq_iff_iff]
  simp only [Bool.and_eq_true, decide_eq_true_eq, staysIn, Bool.or_eq_true, bne_iff_ne, beq_iff_eq, ← hpq]
  refine ⟨And.left, fun h => ⟨h, .inl ?_⟩⟩
  rw [h.1]
  simp

theorem EffectiveOn.congr {s t : State} {a : LineAddr} (h : EffectiveOn s a) (lists : lineList t a = lineList s a)
    (slots : ∀ i ∈ lineList s a, t.slots[i].kind = s.slots[i].kind ∧ t.slots[i].cls = s.slots[i].cls ∧
      t.slots[i].effCls = s.slots[i].effCls) : EffectiveOn t a := by
  intro older x younger hl
  rw [lists] at hl
  have hx := slots x (by simp [hl])
  have hy (b) (hb : b ∈ younger) := slots b (by simp [hl, hb])
  obtain ⟨hkx, hcx, hex⟩ := hx
  obtain ⟨c, heff, hle, hall, hmax⟩ := h older x younger hl
  refine ⟨c, hex.trans heff, hcx ▸ hle, ?_, ?_⟩
  · rintro b ⟨hb, hw⟩
    obtain ⟨hkb, -, heb⟩ := hy b hb
    rw [heb]
    exact hall b ⟨hb, by rwa [hkx, hkb] at hw⟩
  · rw [hcx]
    refine hmax.imp_right ?_
    rintro ⟨b, ⟨hb, hw⟩, he⟩
    obtain ⟨hkb, -, heb⟩ := hy b hb
    exact ⟨b, ⟨hb, by rwa [hkx, hkb]⟩, heb.trans he⟩

/-- The queues' law where no QUEUED slot changes and the arrival list loses only the slots that leave. -/
theorem QueueLaw.kept {s t : State} (h : QueueLaw s) (arrival : t.arrival = s.arrival.filter (staysIn s t))
    (q : QueueKept s t) : QueueLaw t := by
  obtain ⟨hqueues, hnd, hlists, heff, hnone⟩ := h
  obtain ⟨hnd', hlists'⟩ := q.lines hnd
  refine ⟨fun k => ?_, hnd', fun a => ?_, fun a => ?_, fun i hi => ?_⟩
  · rw [q.queues, hqueues]
    refine (filter_queued_eq arrival fun i => ?_).symm
    obtain ⟨hst, -, hc, -, -⟩ := q.slots i
    rw [hst, hc]
  · rw [hlists', hlists]
    refine (filter_queued_eq arrival fun i => ?_).symm
    obtain ⟨hst, -, -, hl, -⟩ := q.slots i
    rw [hst, hl]
  · refine (heff a).congr (hlists' a) fun i _ => ?_
    obtain ⟨-, hk, hc, -, he⟩ := q.slots i
    exact ⟨hk, hc, he⟩
  · obtain ⟨hst, -, -, -, he⟩ := q.slots i
    rw [he]
    exact hnone i fun hq => hi (hst.2 hq)

theorem QueueLaw.moves {s t : State} (h : QueueLaw s) (m : StoreMoves s t) (q : QueueKept s t) : QueueLaw t :=
  h.kept m.arrival q

/-! ## What leaves everything that the laws read -/

/-- Slots, lists, records and tables stay, but for ops that are not a slot's. -/
structure Untouched (s t : State) : Prop where
  slots : t.slots = s.slots
  arrival : t.arrival = s.arrival
  queues : t.queues = s.queues
  lines : t.lines = s.lines
  fences : t.fences = s.fences
  fenceOrder : t.fenceOrder = s.fenceOrder
  responses : t.responses = s.responses
  refusals : t.refusals = s.refusals
  tagTable : t.tagTable = s.tagTable
  ops : ∀ (τ : TagId) (op : OutstandingOp) (i : SlotId), t.tags[τ] = .outstanding op → op.source = .slot i →
    s.tags[τ] = .outstanding op
  waiting : ∀ e : EntryId, t.entries[e].waiting = s.entries[e].waiting

/-- The frame of an operation, as `Untouched` asks it. -/
theorem Untouched.of_frame {s t : State} (waiting : ∀ e : EntryId, t.entries[e].waiting = s.entries[e].waiting)
    (tags : t.tags = s.tags := by simp) (slots : t.slots = s.slots := by simp)
    (arrival : t.arrival = s.arrival := by simp) (queues : t.queues = s.queues := by simp)
    (lines : t.lines = s.lines := by simp) (fences : t.fences = s.fences := by simp)
    (fenceOrder : t.fenceOrder = s.fenceOrder := by simp) (responses : t.responses = s.responses := by simp)
    (refusals : t.refusals = s.refusals := by simp) (tagTable : t.tagTable = s.tagTable := by simp) :
    Untouched s t :=
  ⟨slots, arrival, queues, lines, fences, fenceOrder, responses, refusals, tagTable,
    fun τ op i h _ => by rwa [tags] at h, waiting⟩

theorem Untouched.trans {s t u : State} (h : Untouched s t) (h' : Untouched t u) : Untouched s u where
  slots := h'.slots.trans h.slots
  arrival := h'.arrival.trans h.arrival
  queues := h'.queues.trans h.queues
  lines := h'.lines.trans h.lines
  fences := h'.fences.trans h.fences
  fenceOrder := h'.fenceOrder.trans h.fenceOrder
  responses := h'.responses.trans h.responses
  refusals := h'.refusals.trans h.refusals
  tagTable := h'.tagTable.trans h.tagTable
  ops τ op i hop hi := h.ops τ op i (h'.ops τ op i hop hi) hi
  waiting e := (h'.waiting e).trans (h.waiting e)

theorem Untouched.moves {s t : State} (u : Untouched s t) : StoreMoves s t :=
  .of_eq u.slots u.fences u.arrival u.responses u.refusals u.fenceOrder u.tagTable

theorem Untouched.kept {s t : State} (u : Untouched s t) : QueueKept s t := .of_eq u.slots u.queues u.lines

theorem OpLaw.untouched {s t : State} (h : OpLaw s) (u : Untouched s t) : OpLaw t := fun τ op i hop hi => by
  rw [u.slots]
  exact h τ op i (u.ops τ op i hop hi) hi

theorem WaitLaw.untouched {s t : State} (h : WaitLaw s) (u : Untouched s t) : WaitLaw t := fun e i hi => by
  rw [u.waiting] at hi
  rw [u.slots]
  simpa only [u.waiting] using h e i hi

theorem RefLaw.untouched {s t : State} (h : RefLaw s) (u : Untouched s t) : RefLaw t where
  arrival_nodup := u.arrival ▸ h.arrival_nodup
  mem_arrival := by simpa only [u.arrival, u.slots] using h.mem_arrival
  undelivered := by simpa only [u.slots] using h.undelivered
  slot_ref := by simpa only [u.responses, u.slots] using h.slot_ref
  nodup := u.responses ▸ h.nodup
  fence_ref := by simpa only [u.responses, u.fences] using h.fence_ref
  refusal_ref := by simpa only [u.responses, u.refusals] using h.refusal_ref
  done_status := by simpa only [u.slots] using h.done_status
  completed_status := by simpa only [u.fences] using h.completed_status
  order_nodup := u.fenceOrder ▸ h.order_nodup
  mem_order := by simpa only [u.fenceOrder, u.fences] using h.mem_order

theorem StoreLaw.untouched {s t : State} (h : StoreLaw s) (u : Untouched s t) : StoreLaw t := by
  obtain ⟨hr, ho, hw⟩ := storeLaw_iff.1 h
  exact storeLaw_iff.2 ⟨hr.untouched u, ho.untouched u, hw.untouched u⟩

theorem judgeEmpty_untouched (s : State) : Untouched s (judgeEmpty s) := .of_frame fun e => by simp

/-! ## An event, from the state it begins in to the state it publishes -/

/-- Slots, fences and lists move as an event may move them, and the laws of ops and confirmations hold. -/
structure Passing (s t : State) : Prop where
  moves : StoreMoves s t
  kept : QueueKept s t
  ops : OpLaw t
  waits : WaitLaw t

theorem Passing.trans {s t u : State} (h : Passing s t) (h' : Passing t u) : Passing s u :=
  ⟨h.moves.trans h'.moves, h.kept.trans h'.kept, h'.ops, h'.waits⟩

theorem Untouched.passing {s t : State} (u : Untouched s t) (ho : OpLaw s) (hw : WaitLaw s) : Passing s t :=
  ⟨u.moves, u.kept, ho.untouched u, hw.untouched u⟩

theorem Passing.andThen {s t u : State} (h : Passing s t) (n : Untouched t u) : Passing s u :=
  h.trans (n.passing h.ops h.waits)

/-- The Request Store's law at the end of an event that publishes. -/
theorem StoreLaw.conclude {s t : State} (h : StoreLaw s) (m : StoreMoves s t) (ho : OpLaw t) (hw : WaitLaw t) :
    StoreLaw (conclude s t) :=
  have hpub : StoreLaw (publish s t) := storeLaw_iff.2 ⟨(storeLaw_iff.1 h).1.publish m, ho, hw⟩
  hpub.untouched (judgeEmpty_untouched _)

theorem QueueLaw.conclude {s t : State} (h : QueueLaw t) : QueueLaw (conclude s t) :=
  have hpub : QueueLaw (publish s t) := h
  hpub.moves (judgeEmpty_untouched _).moves (judgeEmpty_untouched _).kept

theorem TagLaw.conclude {s t : State} (h : TagLaw t) : TagLaw (conclude s t) :=
  have hpub : TagLaw (publish s t) := h
  hpub.moves (judgeEmpty_untouched _).moves

/-! ## Timeouts and completions -/

/-- An op's resolution, and a tag given up with it. -/
theorem resolve_passing {s : State} (ho : OpLaw s) (hw : WaitLaw s) {τ : TagId} {op : OutstandingOp}
    (hop : s.tags[τ] = .outstanding op) (o : OpOutcome) {x : TagRecord} (hx : ∀ op', x ≠ .outstanding op') :
    Passing s (setTag (resolveSource s op.source o) τ x) where
  moves := (resolveSource_moves ho hw hop o).trans .of_eq
  kept := (resolveSource_kept ho hw hop o).trans .of_eq
  ops := ho.resolve hw hop o hx (t := setTag (resolveSource s op.source o) τ x) rfl (by simp [setTag])
  waits := hw.resolve ho hop o (t := setTag (resolveSource s op.source o) τ x) rfl rfl

theorem judgeTimeout_passing {s : State} (ho : OpLaw s) (hw : WaitLaw s) (τ : TagId) :
    Passing s (judgeTimeout s τ) := by
  have hsame : Passing s s := (Untouched.of_frame fun e => rfl).passing ho hw
  have hcount (t : State) : Untouched t (raiseMemTimeout (countTimeout t)) := .of_frame fun e => by simp
  unfold judgeTimeout
  split
  · next op hop =>
    split
    · exact (resolve_passing ho hw hop .timeout (x := .quarantined) nofun).andThen (hcount _)
    · exact hsame
  · exact hsame
  · exact hsame

theorem judgeAllTimeouts_passing {s t : State} (h : Passing s t) : Passing s (judgeAllTimeouts t) :=
  forEach_keeps (P := Passing s) (fun _ τ hu => hu.trans (judgeTimeout_passing hu.ops hu.waits τ)) h

theorem agedSlot_eq (x : Slot) : agedSlot x = { x with age := (agedSlot x).age } := by
  unfold agedSlot
  split <;> rfl

theorem advanceTime_passing {s : State} (ho : OpLaw s) (hw : WaitLaw s) : Passing s (advanceTime s) := by
  have hslot (i : SlotId) : (advanceTime s).slots[i] = { s.slots[i] with age := (agedSlot s.slots[i]).age } := by
    rw [advanceTime_spec, ← agedSlot_eq]
    exact get_tabulate _ i
  refine ⟨.of_slots (fun i => ?_) (fun i h => ?_), .of_slots fun i => ?_, ?_, ?_⟩
  · rw [hslot]; exact ⟨rfl, rfl, rfl, .inl ⟨rfl, rfl⟩⟩
  · rw [hslot]; exact h
  · rw [hslot]; exact ⟨.rfl, rfl, rfl, rfl, rfl⟩
  · simpa only [OpLaw, hslot, advanceTime_frame] using ho
  · simpa only [WaitLaw, hslot, advanceTime_frame] using hw

theorem timeStep_passing {s : State} (ho : OpLaw s) (hw : WaitLaw s) :
    Passing s (judgeAllTimeouts (judgeAllAged (judgeAllUrgency (judgeRefill (advanceTime s))))) := by
  have hjudge (t : State) : Untouched t (judgeAllAged (judgeAllUrgency (judgeRefill t))) := .of_frame fun e => by
    rw [judgeAllAged_waiting]
    simp only [judgeAllUrgency_frame, judgeRefill_frame]
  exact judgeAllTimeouts_passing ((advanceTime_passing ho hw).andThen (hjudge _))

theorem commit_passing {s : State} (ho : OpLaw s) (hw : WaitLaw s) :
    Passing s (judgeAllTimeouts (judgePressure (judgeAllAged (judgeAllUrgency (clampBalances (adoptStaged s)))))) := by
  have hjudge : Untouched s (judgePressure (judgeAllAged (judgeAllUrgency (clampBalances (adoptStaged s))))) :=
    .of_frame fun e => by
      rw [judgePressure_waiting, judgeAllAged_waiting]
      simp only [judgeAllUrgency_frame, clampBalances_frame, adoptStaged_frame]
  exact judgeAllTimeouts_passing (hjudge.passing ho hw)

/-! ## Effective classes (R67, R68) -/

theorem effectiveClasses_fst (slots : Vector Slot 48) (l : List SlotId) : (effectiveClasses slots l).map (·.1) = l := by
  induction l with
  | nil => rfl
  | cons i l ih => rw [effectiveClasses, List.map_cons, ih]

/-- The classes of a list's back part do not depend on what stands before it. -/
theorem effectiveClasses_append (slots : Vector Slot 48) (older l : List SlotId) :
    ∃ es, effectiveClasses slots (older ++ l) = es ++ effectiveClasses slots l := by
  induction older with
  | nil => exact ⟨[], rfl⟩
  | cons i older ih =>
    obtain ⟨es, hes⟩ := ih
    rw [List.cons_append, effectiveClasses, hes]
    exact ⟨_ :: es, rfl⟩

/-- The largest of a class and the classes of the pairs that a test selects: no less than any of them, and one
of them. -/
theorem foldl_max_spec (p : SlotId × ClassId → Bool) (es : List (SlotId × ClassId)) (c : ClassId) :
    c ≤ es.foldl (fun m x => if p x then max m x.2 else m) c ∧
    (∀ x ∈ es, p x = true → x.2 ≤ es.foldl (fun m x => if p x then max m x.2 else m) c) ∧
    (es.foldl (fun m x => if p x then max m x.2 else m) c = c ∨
      ∃ x ∈ es, p x = true ∧ es.foldl (fun m x => if p x then max m x.2 else m) c = x.2) := by
  induction es generalizing c with
  | nil => simp
  | cons y es ih =>
    rw [List.foldl_cons]
    by_cases hy : p y = true
    · rw [if_pos hy]
      obtain ⟨hle, hall, hmax⟩ := ih (max c y.2)
      refine ⟨(le_max_left _ _).trans hle, fun x hx hp => ?_, ?_⟩
      · rcases List.mem_cons.1 hx with rfl | hx
        · exact (le_max_right _ _).trans hle
        · exact hall x hx hp
      · rcases hmax with hmax | ⟨x, hx, hp, hmax⟩
        · rcases max_choice c y.2 with hc | hc
          · exact .inl (hmax.trans hc)
          · exact .inr ⟨y, by simp, hy, hmax.trans hc⟩
        · exact .inr ⟨x, by simp [hx], hp, hmax⟩
    · rw [if_neg hy]
      obtain ⟨hle, hall, hmax⟩ := ih c
      refine ⟨hle, fun x hx hp => ?_, hmax.imp_right ?_⟩
      · rcases List.mem_cons.1 hx with rfl | hx
        · exact absurd hp hy
        · exact hall x hx hp
      · rintro ⟨x, hx, hp, hmax⟩
        exact ⟨x, by simp [hx], hp, hmax⟩

theorem setEffective_slots (s : State) (p : SlotId × ClassId) (j : SlotId) :
    (setEffective s p).slots[j] = if j = p.1 then { s.slots[j] with effCls := some p.2 } else s.slots[j] := by
  have h : (setEffective s p).slots = put s.slots p.1 { s.slots[p.1] with effCls := some p.2 } := by
    simp only [setEffective]
    split
    · simp only [countPromotion_frame]; rfl
    · rfl
  rw [h, get_put]
  split
  · next hj => rw [hj]
  · rfl

/-- The classes set: a slot that no pair names keeps what it holds. -/
theorem foldl_setEffective_not_mem {es : List (SlotId × ClassId)} {j : SlotId} (h : j ∉ es.map (·.1)) (s : State) :
    (es.foldl setEffective s).slots[j] = s.slots[j] := by
  induction es generalizing s with
  | nil => rfl
  | cons p es ih =>
    obtain ⟨hne, hnot⟩ := not_or.1 (List.mem_cons.not.1 (List.map_cons ▸ h))
    rw [List.foldl_cons, ih hnot, setEffective_slots, if_neg hne]

/-- Setting classes reaches no other field of a slot. -/
theorem foldl_setEffective_frame (es : List (SlotId × ClassId)) (s : State) (j : SlotId) :
    (es.foldl setEffective s).slots[j] =
      { s.slots[j] with effCls := (es.foldl setEffective s).slots[j].effCls } := by
  induction es generalizing s with
  | nil => rfl
  | cons p es ih =>
    rw [List.foldl_cons, ih]
    simp only [setEffective_slots]
    split <;> rfl

/-- A pair that stands last for its slot sets the class. -/
theorem foldl_setEffective_mem {es younger : List (SlotId × ClassId)} {p : SlotId × ClassId}
    (h : p.1 ∉ younger.map (·.1)) (s : State) :
    ((es ++ p :: younger).foldl setEffective s).slots[p.1].effCls = some p.2 := by
  rw [List.foldl_append, List.foldl_cons, foldl_setEffective_not_mem h, setEffective_slots, if_pos rfl]

theorem recompute_slots (s : State) (a : LineAddr) (j : SlotId) :
    (recompute s a).slots[j] = { s.slots[j] with effCls := (recompute s a).slots[j].effCls } :=
  foldl_setEffective_frame _ s j

theorem recompute_slots_not_mem {s : State} {a : LineAddr} {j : SlotId} (h : j ∉ lineList s a) :
    (recompute s a).slots[j] = s.slots[j] :=
  foldl_setEffective_not_mem (by rwa [effectiveClasses_fst]) s

theorem recompute_lineList (s : State) (a b : LineAddr) : lineList (recompute s a) b = lineList s b :=
  lineList_congr (by simp) b

theorem blocks_iff {x y : Access} : blocks x y = true ↔ x = .write ∨ y = .write := by
  simp [blocks]

/-- Each slot of a line takes the class that stands with it. -/
theorem recompute_effCls {s : State} {a : LineAddr} (hnd : (lineList s a).Nodup) {p : SlotId × ClassId}
    (hp : p ∈ effectiveClasses s.slots (lineList s a)) : (recompute s a).slots[p.1].effCls = some p.2 := by
  obtain ⟨older, younger, he⟩ := List.append_of_mem hp
  rw [recompute, he]
  refine foldl_setEffective_mem ?_ s
  have hnd' := effectiveClasses_fst s.slots (lineList s a) ▸ hnd
  rw [he, List.map_append, List.map_cons] at hnd'
  exact (List.nodup_cons.1 (List.nodup_append.1 hnd').2.1).1

/-- What the effective classes of a line's slots are once they are computed again. -/
theorem recompute_effectiveOn {s : State} {a : LineAddr} (hnd : (lineList s a).Nodup) :
    EffectiveOn (recompute s a) a := by
  intro older x younger hl
  rw [recompute_lineList] at hl
  have hkind (j : SlotId) : (recompute s a).slots[j].kind = s.slots[j].kind := by rw [recompute_slots]
  have hcls (j : SlotId) : (recompute s a).slots[j].cls = s.slots[j].cls := by rw [recompute_slots]
  obtain ⟨es, hes⟩ := effectiveClasses_append s.slots older (x :: younger)
  rw [← hl, effectiveClasses] at hes
  obtain ⟨hle, hall, hmax⟩ := foldl_max_spec (fun p => blocks s.slots[x].kind s.slots[p.1].kind)
    (effectiveClasses s.slots younger) s.slots[x].cls
  have hyoung {p : SlotId × ClassId} (hp : p ∈ effectiveClasses s.slots younger) :
      p.1 ∈ younger ∧ (recompute s a).slots[p.1].effCls = some p.2 :=
    ⟨effectiveClasses_fst s.slots younger ▸ List.mem_map_of_mem hp,
      recompute_effCls hnd (by rw [hes]; exact List.mem_append_right _ (List.mem_cons_of_mem _ hp))⟩
  refine ⟨_, recompute_effCls hnd (by rw [hes]; exact List.mem_append_right _ List.mem_cons_self), by rwa [hcls], ?_,
    ?_⟩
  · rintro b ⟨hb, hw⟩
    rw [← effectiveClasses_fst s.slots younger] at hb
    obtain ⟨p, hp, rfl⟩ := List.mem_map.1 hb
    rw [hkind, hkind] at hw
    exact ⟨p.2, hall p hp (blocks_iff.2 hw), (hyoung hp).2⟩
  · rw [hcls]
    refine hmax.imp_right ?_
    rintro ⟨p, hp, hb, heq⟩
    obtain ⟨hmem, heff⟩ := hyoung hp
    rw [hkind]
    refine ⟨p.1, ⟨hmem, ?_⟩, by rw [heff, heq]⟩
    rw [hkind]
    exact blocks_iff.1 hb

/-! ## The arbiter's choice of a slot -/

theorem firstOffer_slot {s : State} {classes : List ClassId} {p : ClassId → Bool} {rr rr' : Bool} {i : SlotId}
    {a : Action} {cls : ClassId} (h : firstOffer s classes p rr = some (.slot i a cls rr')) :
    grantableAction s i = some a := by
  obtain ⟨e, -, he⟩ := List.exists_of_findSome?_eq_some h
  obtain ⟨⟨i', a'⟩, hoffer, heq⟩ := Option.map_eq_some_iff.1 he
  obtain ⟨j, -, hj⟩ := List.exists_of_findSome?_eq_some hoffer
  obtain ⟨b, hb, hpair⟩ := Option.map_eq_some_iff.1 hj
  cases hpair
  cases heq
  exact hb

/-- A slot that the arbiter chooses is granted the action that a grant of it would take. -/
theorem choose_slot {s : State} {i : SlotId} {a : Action} {cls : ClassId} {rr : Bool}
    (h : choose s = some (.slot i a cls rr)) : grantableAction s i = some a := by
  have hdrain {b : Bool} {o : Option EntryId} (h : (if b then o.map Choice.drain else none) = some (.slot i a cls rr)) :
      False := by
    split at h
    · simp at h
    · cases h
  simp only [choose, Option.or_eq_some_iff] at h
  rcases h with h | ⟨-, h | ⟨-, h | ⟨-, h | ⟨-, h⟩⟩⟩⟩
  · exact (hdrain h).elim
  · exact firstOffer_slot h
  · exact firstOffer_slot h
  · exact (hdrain h).elim
  · exact firstOffer_slot h

theorem grantableAction_queued {s : State} {i : SlotId} {a : Action} (h : grantableAction s i = some a) :
    s.slots[i].state = .queued := by
  unfold grantableAction at h
  split at h
  · next hq => exact beq_iff_eq.1 (Bool.and_eq_true_iff.1 hq).1
  · cases h

/-! ## What an action does -/

/-- A granted slot keeps what identifies it and its place, and is ISSUED, WAIT_DRAIN, or DONE with OK. -/
def Granted (x y : Slot) : Prop :=
  y.initiator = x.initiator ∧ y.tag = x.tag ∧ y.delivered = x.delivered ∧ y.kind = x.kind ∧ y.cls = x.cls ∧
  y.line = x.line ∧ y.effCls = x.effCls ∧
  (y.state = .issued ∨ y.state = .waitDrain ∨ (y.state = .done ∧ y.status = some .ok))

/-- The lists of the lines stay. -/
def ListsKept (s t : State) : Prop :=
  (s.lines.map (·.line)).Nodup → (t.lines.map (·.line)).Nodup ∧ ∀ a, lineList t a = lineList s a

theorem ListsKept.of_eq {s t : State} (h : t.lines = s.lines := by simp) : ListsKept s t :=
  fun hs => ⟨h ▸ hs, lineList_congr h⟩

/-- What an action does to the slots, ops and waiting confirmations that the laws read. -/
structure Acts (s t : State) (i : SlotId) : Prop where
  others : ∀ j : SlotId, j ≠ i → t.slots[j] = s.slots[j]
  self : Granted s.slots[i] t.slots[i]
  ops : ∀ (τ : TagId) (op : OutstandingOp) (j : SlotId), t.tags[τ] = .outstanding op → op.source = .slot j →
    s.tags[τ] = .outstanding op ∨
      (j = i ∧ t.slots[i].memTag = some τ ∧ (t.slots[i].state = .issued ∨ t.slots[i].state = .done))
  waits : ∃ d : EntryId, ∀ (e : EntryId) (j : SlotId), j ∈ t.entries[e].waiting →
    j ∈ s.entries[e].waiting ∨ (e = d ∧ j = i ∧ t.slots[i].state = .waitDrain)
  lines : ListsKept s t

/-- An action that leaves the ops and the waiting confirmations. -/
theorem Acts.of_slot {s t : State} {i : SlotId} {y : Slot} (slots : t.slots = put s.slots i y)
    (self : Granted s.slots[i] y) (waiting : ∀ e : EntryId, ∀ j ∈ t.entries[e].waiting, j ∈ s.entries[e].waiting)
    (lines : ListsKept s t) (tags : t.tags = s.tags := by simp) : Acts s t i where
  others j hj := by rw [slots, get_put_ne _ _ hj]
  self := by rw [slots, get_put_self]; exact self
  ops τ op j hop _ := .inl (tags ▸ hop)
  waits := ⟨0, fun e j hj => .inl (waiting e j hj)⟩
  lines := lines

/-- The slot after an op has been issued for it, and the ops there are then. -/
theorem issueForSlot_ops (s : State) (i : SlotId) (k : OpKind) :
    ∃ m, (issueForSlot s i k).slots = put s.slots i { s.slots[i] with memTag := m } ∧
      ∀ (τ : TagId) (op : OutstandingOp) (j : SlotId), (issueForSlot s i k).tags[τ] = .outstanding op →
        op.source = .slot j → s.tags[τ] = .outstanding op ∨ (j = i ∧ m = some τ) := by
  cases hf : firstFreeTag s with
  | none =>
    have hsame : issueForSlot s i k = s := by simp only [issueForSlot, hf]
    exact ⟨s.slots[i].memTag, by rw [hsame]; exact (put_get _ _).symm, fun τ op j h _ => .inl (hsame ▸ h)⟩
  | some t =>
    rw [issueForSlot_spec hf]
    refine ⟨some t, rfl, fun τ op j h hs => ?_⟩
    simp only [get_put] at h
    split at h
    · next hτ =>
      cases h
      cases hs
      exact .inr ⟨rfl, by rw [hτ]⟩
    · exact .inl h

theorem doForward_acts (s : State) (i : SlotId) (e : EntryId) : Acts s (doForward s i e) i := by
  refine .of_slot (y := { s.slots[i] with
    data := keepLanes (requestedLanes s.slots[i]) s.entries[e].data, state := .done, status := some .ok }) ?_
    ⟨rfl, rfl, rfl, rfl, rfl, rfl, rfl, .inr (.inr ⟨rfl, rfl⟩)⟩ (fun d j hj => ?_) .of_eq
  · simp [doForward, finishOk, setSlot]
  · simpa only [doForward_frame] using hj

/-- The slot, ISSUED under a memory tag. -/
def issuedAs (m : Option TagId) (x : Slot) : Slot := { x with state := .issued, memTag := m }

theorem doPlainRead_spec (s : State) (i : SlotId) :
    ∃ m, (doPlainRead s i).slots = put s.slots i (issuedAs m s.slots[i]) ∧
      ∀ (τ : TagId) (op : OutstandingOp) (j : SlotId), (doPlainRead s i).tags[τ] = .outstanding op →
        op.source = .slot j → s.tags[τ] = .outstanding op ∨ (j = i ∧ m = some τ) := by
  obtain ⟨m, hslots, hops⟩ := issueForSlot_ops (setSlot s i { s.slots[i] with state := .issued }) i .lineRead
  refine ⟨m, ?_, hops⟩
  rw [doPlainRead, hslots]
  simp only [setSlot, setSlots_slots, get_put_self, put_put]
  rfl

/-- A LINE_READ issued for a slot, from any state that differs from the grant's in that slot's snapshot and data. -/
theorem doPlainRead_acts {s : State} {i : SlotId} {x : Slot} (hx : ∀ m, Granted s.slots[i] (issuedAs m x)) :
    Acts s (doPlainRead (setSlot s i x) i) i := by
  obtain ⟨m, hspec, hops⟩ := doPlainRead_spec (setSlot s i x) i
  simp only [setSlot_tags] at hops
  have hslots : (doPlainRead (setSlot s i x) i).slots = put s.slots i (issuedAs m x) := by
    rw [hspec]
    simp only [setSlot, setSlots_slots, get_put_self, put_put]
  refine ⟨fun j hj => by rw [hslots, get_put_ne _ _ hj], by rw [hslots, get_put_self]; exact hx m,
    fun τ op j hop hsrc => ?_, ⟨0, fun e j hj => .inl ?_⟩, .of_eq⟩
  · rw [hslots, get_put_self]
    exact (hops τ op j hop hsrc).imp_right fun ⟨hj, hm⟩ => ⟨hj, hm, .inl rfl⟩
  · simpa only [doPlainRead_frame, setSlot_entries] using hj

theorem countOverlay_acts {s t : State} {i : SlotId} (h : Acts s t i) : Acts s (countOverlay t) i where
  others := by simpa only [countOverlay_frame] using h.others
  self := by simpa only [countOverlay_frame] using h.self
  ops := by simpa only [countOverlay_frame] using h.ops
  waits := by simpa only [countOverlay_frame] using h.waits
  lines hs := by
    obtain ⟨hnd, hl⟩ := h.lines hs
    exact ⟨by simpa only [countOverlay_frame] using hnd, hl⟩

@[simp] theorem mergedEntry_waiting (m : MergeEntry) (x : Slot) : (mergedEntry m x).waiting = m.waiting := by
  simp only [mergedEntry]

theorem mergeInto_waiting (s : State) (i : SlotId) (e d : EntryId) :
    (mergeInto s i e).entries[d].waiting = s.entries[d].waiting := by
  have hset : (countMerge (setEntry s e (mergedEntry s.entries[e] s.slots[i]))).entries[d].waiting =
      s.entries[d].waiting := by
    simp only [countMerge_frame, get_setEntry]
    split
    · next h => rw [h, mergedEntry_waiting]
    · rfl
  simp only [mergeInto]
  split
  · rw [addReason_waiting, hset]
  · exact hset

theorem doMerge_slots (s : State) (i : SlotId) (e : EntryId) :
    (doMerge s i e).slots = put s.slots i (doneWith .ok s.slots[i]) := by
  simp [doMerge, finishOk, doneWith, setSlot]

theorem doMerge_acts (s : State) (i : SlotId) (e : EntryId) : Acts s (doMerge s i e) i := by
  refine .of_slot (doMerge_slots s i e) ⟨rfl, rfl, rfl, rfl, rfl, rfl, rfl, .inr (.inr ⟨rfl, rfl⟩)⟩ (fun d j hj => ?_)
    .of_eq
  rw [doMerge] at hj
  simpa only [finishOk_frame, mergeInto_waiting] using hj

theorem doMergeWait_acts (s : State) (i : SlotId) (e : EntryId) : Acts s (doMergeWait s i e) i := by
  have hslots : (doMergeWait s i e).slots = put s.slots i { s.slots[i] with state := .waitDrain } := by
    simp [doMergeWait, awaitDrain, setSlot]
  refine ⟨fun j hj => by rw [hslots, get_put_ne _ _ hj], ?_, fun τ op j hop _ => .inl (by simpa using hop), ⟨e, ?_⟩,
    .of_eq⟩
  · rw [hslots, get_put_self]
    exact ⟨rfl, rfl, rfl, rfl, rfl, rfl, rfl, .inr (.inl rfl)⟩
  · intro d j hj
    rw [doMergeWait, addReason_waiting, awaitDrain, get_setEntry] at hj
    rw [hslots, get_put_self]
    split at hj
    · next hd =>
      rcases List.mem_append.1 hj with hj | hj
      · exact .inl (by rwa [mergeInto_waiting, ← hd] at hj)
      · exact .inr ⟨hd, by simpa using hj, rfl⟩
    · exact .inl (by simpa only [setSlot_entries, mergeInto_waiting] using hj)

theorem doAllocate_acts (s : State) (i : SlotId) (e : EntryId) : Acts s (doAllocate s i e) i := by
  have hdrain (t : State) (d : EntryId) : (drainCmdIfDraining t e).entries[d].waiting = t.entries[d].waiting := by
    unfold drainCmdIfDraining
    split
    · exact addReason_waiting ..
    · rfl
  refine .of_slot (y := doneWith .ok s.slots[i]) ?_ ⟨rfl, rfl, rfl, rfl, rfl, rfl, rfl, .inr (.inr ⟨rfl, rfl⟩)⟩
    (fun d j hj => ?_) fun hs => ?_
  · simp only [doAllocate, drainCmdIfDraining_frame, doMerge_slots, setMergeRef_frame, setEntry_slots]
  · rw [doAllocate, hdrain, doMerge] at hj
    simp only [finishOk_frame, mergeInto_waiting, setMergeRef_frame, get_setEntry] at hj
    split at hj
    · simp [allocatedEntry, MergeEntry.free] at hj
    · exact hj
  · obtain ⟨hnd, hl⟩ := (setMergeRef_kept (setEntry s e (allocatedEntry s.slots[i] s.timeBase)) s.slots[i].line
      (some e)).lines hs
    have hlines : (doAllocate s i e).lines = (setMergeRef (setEntry s e (allocatedEntry s.slots[i] s.timeBase))
        s.slots[i].line (some e)).lines := by simp [doAllocate]
    exact ⟨hlines ▸ hnd, fun a => (lineList_congr hlines a).trans (hl a)⟩

/-- A direct write leaves the slot DONE with OK, or ISSUED, after the issue of its op. -/
theorem doDirect_cases (s : State) (i : SlotId) :
    let t := issueForSlot s i (.maskedWrite s.slots[i].lanes)
    doDirect s i = setSlot t i (doneWith .ok t.slots[i]) ∨
      doDirect s i = setSlot t i (issuedAs t.slots[i].memTag t.slots[i]) := by
  intro t
  unfold doDirect
  split
  · exact .inl rfl
  · exact .inl rfl
  · exact .inr rfl

theorem doDirect_acts (s : State) (i : SlotId) : Acts s (doDirect s i) i := by
  obtain ⟨m, hslots, hops⟩ := issueForSlot_ops s i (.maskedWrite s.slots[i].lanes)
  have hi : (issueForSlot s i (.maskedWrite s.slots[i].lanes)).slots[i] = { s.slots[i] with memTag := m } := by
    rw [hslots, get_put_self]
  have hacts {y : Slot} (hy : doDirect s i = setSlot (issueForSlot s i (.maskedWrite s.slots[i].lanes)) i y)
      (hg : Granted s.slots[i] y) (hm : y.memTag = m) (hst : y.state = .issued ∨ y.state = .done) :
      Acts s (doDirect s i) i := by
    have hput : (doDirect s i).slots = put s.slots i y := by
      rw [hy, setSlot, setSlots_slots, hslots, put_put]
    refine ⟨fun j hj => by rw [hput, get_put_ne _ _ hj], by rw [hput, get_put_self]; exact hg,
      fun τ op j hop hsrc => ?_,
      ⟨0, fun e j hj => .inl (by simpa only [doDirect_frame] using hj)⟩, .of_eq⟩
    rw [hy] at hop
    rw [hput, get_put_self, hm]
    exact (hops τ op j hop hsrc).imp_right fun ⟨hj, hm⟩ => ⟨hj, hm, hst⟩
  rcases doDirect_cases s i with h | h
  · rw [hi] at h
    exact hacts h ⟨rfl, rfl, rfl, rfl, rfl, rfl, rfl, .inr (.inr ⟨rfl, rfl⟩)⟩ rfl (.inr rfl)
  · rw [hi] at h
    exact hacts h ⟨rfl, rfl, rfl, rfl, rfl, rfl, rfl, .inl rfl⟩ rfl (.inl rfl)

theorem doAction_acts (s : State) (i : SlotId) (a : Action) : Acts s (doAction s i a) i := by
  cases a with
  | forward e => exact doForward_acts s i e
  | overlayRead e =>
    exact countOverlay_acts (doPlainRead_acts fun m => ⟨rfl, rfl, rfl, rfl, rfl, rfl, rfl, .inl rfl⟩)
  | plainRead =>
    have hsame : setSlot s i s.slots[i] = s := by simp only [setSlot, put_get]; rfl
    have h := doPlainRead_acts (s := s) (i := i) (x := s.slots[i])
      fun m => ⟨rfl, rfl, rfl, rfl, rfl, rfl, rfl, .inl rfl⟩
    rwa [hsame] at h
  | merge e => exact doMerge_acts s i e
  | mergeWait e => exact doMergeWait_acts s i e
  | allocate e => exact doAllocate_acts s i e
  | direct => exact doDirect_acts s i

/-! ## A grant before its action: the slot leaves its queue and its line's list (R39, R69, R72) -/

theorem dequeue_slots (s : State) (i : SlotId) :
    (dequeue s i).slots = put s.slots i { s.slots[i] with effCls := none } := by
  simp only [dequeue, leaveLine_frame, setSlot, setSlots_slots, setQueues_slots]

theorem dequeue_queues (s : State) (i : SlotId) :
    (dequeue s i).queues = put s.queues s.slots[i].cls (without i s.queues[s.slots[i].cls]) := by
  simp only [dequeue, leaveLine_frame, setSlot_queues, setQueues_queues]

/-- What a grant acts on: the slot gone from its queue and list, the line's classes computed again. -/
def ungrouped (s : State) (i : SlotId) : State := recompute (dequeue s i) s.slots[i].line

theorem ungrouped_slots (s : State) (i j : SlotId) :
    (ungrouped s i).slots[j] = { s.slots[j] with effCls := (ungrouped s i).slots[j].effCls } := by
  unfold ungrouped
  rw [recompute_slots, dequeue_slots, get_put]
  split
  · next h => rw [h]
  · rfl

theorem dequeue_lists (s : State) (i : SlotId) (b : LineAddr) :
    lineList (dequeue s i) b = if b = s.slots[i].line then without i (lineList s b) else lineList s b := by
  obtain ⟨hself, -, hother⟩ := leaveLine_spec
    (setSlot (setQueues s (put s.queues s.slots[i].cls (without i s.queues[s.slots[i].cls]))) i
      { s.slots[i] with effCls := none }) s.slots[i].line i
  split
  · next hb => rw [hb]; exact hself
  · next hb => exact lineList_eq_of_findLine (hother b hb)

theorem ungrouped_lists (s : State) (i : SlotId) (b : LineAddr) :
    lineList (ungrouped s i) b = if b = s.slots[i].line then without i (lineList s b) else lineList s b := by
  rw [ungrouped, recompute_lineList, dequeue_lists]

theorem ungrouped_lines (s : State) (i : SlotId) : (ungrouped s i).lines.map (·.line) = s.lines.map (·.line) := by
  simp only [ungrouped, recompute_frame, dequeue, leaveLine]
  exact map_line_updateLine _ _ (by intro l; rfl)

/-- A slot off the line, or the granted one itself, takes no class from the computation. -/
theorem ungrouped_effCls {s : State} {i j : SlotId} (h : j = i ∨ j ∉ lineList s s.slots[i].line) :
    (ungrouped s i).slots[j].effCls = if j = i then none else s.slots[j].effCls := by
  have hnot : j ∉ lineList (dequeue s i) s.slots[i].line := by
    rw [dequeue_lists, if_pos rfl, mem_without]
    tauto
  rw [ungrouped, recompute_slots_not_mem hnot, dequeue_slots, get_put]
  split <;> rfl

theorem ungrouped_frame (s : State) (i : SlotId) :
    (ungrouped s i).arrival = s.arrival ∧ (ungrouped s i).fences = s.fences ∧
    (ungrouped s i).responses = s.responses ∧ (ungrouped s i).refusals = s.refusals ∧
    (ungrouped s i).fenceOrder = s.fenceOrder ∧ (ungrouped s i).tagTable = s.tagTable ∧
    (ungrouped s i).tags = s.tags ∧ (ungrouped s i).entries = s.entries := by
  simp [ungrouped]

/-! ## A granted slot's action keeps the laws -/

theorem acts_moves {s v : State} {i : SlotId} (hq : s.slots[i].state = .queued) (h : Acts (ungrouped s i) v i)
    (fences : v.fences = s.fences) (arrival : v.arrival = s.arrival) (responses : v.responses = s.responses)
    (refusals : v.refusals = s.refusals) (fenceOrder : v.fenceOrder = s.fenceOrder)
    (tagTable : v.tagTable = s.tagTable) : StoreMoves s v := by
  obtain ⟨hi, hg, hd, -, -, -, -, hst⟩ := h.self
  rw [ungrouped_slots] at hi hg hd
  refine .of_slots (fun j => ?_) (fun j hj => ?_) fences arrival responses refusals fenceOrder tagTable
  · by_cases hji : j = i
    · subst hji
      refine ⟨hi, hg, hd, .inr (.inl ?_)⟩
      rw [hq]
      rcases hst with hst | hst | ⟨hst, hok⟩
      · simp only [hst, ne_eq, reduceCtorEq, not_false_eq_true, false_implies, and_self]
      · simp only [hst, ne_eq, reduceCtorEq, not_false_eq_true, false_implies, and_self]
      · simp only [hst, hok, ne_eq, reduceCtorEq, not_false_eq_true, Option.isSome_some, implies_true, and_self]
    · rw [h.others j hji, ungrouped_slots]
      exact ⟨rfl, rfl, rfl, .inl ⟨rfl, rfl⟩⟩
  · by_cases hji : j = i
    · subst hji
      rcases hst with hst | hst | ⟨hst, -⟩ <;> simp only [hst, ne_eq, reduceCtorEq, not_false_eq_true]
    · rw [h.others j hji, ungrouped_slots]
      exact hj

theorem acts_ops {s v : State} {i : SlotId} (ho : OpLaw s) (hq : s.slots[i].state = .queued)
    (h : Acts (ungrouped s i) v i) : OpLaw v := by
  obtain ⟨-, -, -, -, -, -, htags, -⟩ := ungrouped_frame s i
  intro τ op j hop hsrc
  rcases h.ops τ op j hop hsrc with hold | ⟨rfl, hnew⟩
  · rw [htags] at hold
    obtain ⟨hm, hst⟩ := ho τ op j hold hsrc
    have hji : j ≠ i := by
      rintro rfl
      rw [hq] at hst
      simp at hst
    rw [h.others j hji, ungrouped_slots]
    exact ⟨hm, hst⟩
  · exact hnew

theorem acts_waits {s v : State} {i : SlotId} (hw : WaitLaw s) (hq : s.slots[i].state = .queued)
    (h : Acts (ungrouped s i) v i) : WaitLaw v := by
  obtain ⟨-, -, -, -, -, -, -, hentries⟩ := ungrouped_frame s i
  have hnot (e : EntryId) : i ∉ s.entries[e].waiting := fun hi => by
    have := (hw e i hi).1
    rw [hq] at this
    cases this
  obtain ⟨d, hwaits⟩ := h.waits
  rw [hentries] at hwaits
  intro e j hj
  rcases hwaits e j hj with hold | ⟨rfl, rfl, hst⟩
  · obtain ⟨hst, huniq⟩ := hw e j hold
    have hji : j ≠ i := fun he => hnot e (he ▸ hold)
    rw [h.others j hji, ungrouped_slots]
    exact ⟨hst, fun e' he' => huniq e' ((hwaits e' j he').resolve_right fun hn => hji hn.2.1)⟩
  · exact ⟨hst, fun e' he' => ((hwaits e' j he').resolve_left (hnot e')).1⟩

/-- The granted slot is no longer QUEUED, and a test of the QUEUED slots finds the others as before. -/
theorem acts_filter {s v : State} {i : SlotId} (h : Acts (ungrouped s i) v i) (arrival : v.arrival = s.arrival)
    {p q : SlotId → Prop} [DecidablePred p] [DecidablePred q] (hpq : ∀ j : SlotId, j ≠ i → (q j ↔ p j)) :
    v.arrival.filter (fun j => decide (v.slots[j].state = .queued ∧ q j)) =
      without i (s.arrival.filter (fun j => decide (s.slots[j].state = .queued ∧ p j))) := by
  obtain ⟨-, -, -, -, -, -, -, hst⟩ := h.self
  rw [arrival, without, List.filter_filter]
  refine List.filter_congr fun j _ => Bool.eq_iff_iff.2 ?_
  simp only [Bool.and_eq_true, decide_eq_true_eq, bne_iff_ne]
  by_cases hji : j = i
  · subst hji
    rcases hst with hst | hst | ⟨hst, -⟩ <;> simp only [hst, reduceCtorEq, ne_eq, not_true_eq_false, false_and]
  · rw [h.others j hji, ungrouped_slots, hpq j hji]
    simp only [ne_eq, hji, not_false_eq_true, true_and]

theorem without_of_not_mem {i : SlotId} {l : List SlotId} (h : i ∉ l) : without i l = l :=
  List.filter_eq_self.2 fun _ hj => bne_iff_ne.2 fun he => h (he ▸ hj)

theorem acts_queueLaw {s v : State} {i : SlotId} (hl : QueueLaw s) (harr : s.arrival.Nodup)
    (hq : s.slots[i].state = .queued) (h : Acts (ungrouped s i) v i) (queues : v.queues = (ungrouped s i).queues)
    (arrival : v.arrival = s.arrival) : QueueLaw v := by
  obtain ⟨hqueues, hnd, hlists, heff, hnone⟩ := hl
  have hund : ((ungrouped s i).lines.map (·.line)).Nodup := by rwa [ungrouped_lines]
  obtain ⟨hvnd, hvlists⟩ := h.lines hund
  obtain ⟨-, -, -, hkind, hcls, hline, heffi, hst⟩ := h.self
  rw [ungrouped_slots] at hkind hcls hline
  have hother {j : SlotId} (hj : j ≠ i) :
      v.slots[j] = { s.slots[j] with effCls := (ungrouped s i).slots[j].effCls } := by
    rw [h.others j hj, ungrouped_slots]
  have hmem {j : SlotId} {a : LineAddr} (hj : j ∈ lineList s a) : s.slots[j].state = .queued ∧ s.slots[j].line = a := by
    rw [hlists] at hj
    simpa using (List.mem_filter.1 hj).2
  refine ⟨fun k => ?_, hvnd, fun a => ?_, fun a => ?_, fun j hj => ?_⟩
  · have hv := acts_filter h arrival (p := fun j => s.slots[j].cls = k) (q := fun j => v.slots[j].cls = k)
      (fun j hj => by rw [hother hj])
    rw [hv, ← hqueues, queues, ungrouped]
    simp only [recompute_frame, dequeue_queues, get_put]
    split
    · next hk => rw [hk]
    · next hk =>
      refine (without_of_not_mem ?_).symm
      rw [hqueues]
      intro hi
      have hi := of_decide_eq_true (List.mem_filter.1 hi).2
      exact hk hi.2.symm
  · have hv := acts_filter h arrival (p := fun j => s.slots[j].line = a) (q := fun j => v.slots[j].line = a)
      (fun j hj => by rw [hother hj])
    rw [hv, ← hlists, hvlists, ungrouped_lists]
    split
    · rfl
    · next ha => exact (without_of_not_mem fun hi => ha (hmem hi).2.symm).symm
  · by_cases ha : a = s.slots[i].line
    · subst ha
      have hnodup : (lineList (dequeue s i) s.slots[i].line).Nodup := by
        rw [dequeue_lists, if_pos rfl, hlists]
        exact (harr.filter _).filter _
      refine (recompute_effectiveOn hnodup).congr (hvlists _) fun j hj => ?_
      rw [recompute_lineList, dequeue_lists, if_pos rfl, mem_without] at hj
      rw [h.others j hj.2]
      exact ⟨rfl, rfl, rfl⟩
    · have hla : lineList v a = lineList s a := by rw [hvlists, ungrouped_lists, if_neg ha]
      refine (heff a).congr hla fun j hj => ?_
      have hji : j ≠ i := fun he => ha (he ▸ (hmem hj).2.symm)
      have hoff : j ∉ lineList s s.slots[i].line := fun hm => ha ((hmem hj).2.symm.trans (hmem hm).2)
      rw [hother hji, ungrouped_effCls (.inr hoff), if_neg hji]
      exact ⟨rfl, rfl, rfl⟩
  · by_cases hji : j = i
    · subst hji
      rw [heffi, ungrouped_effCls (.inl rfl), if_pos rfl]
    · have hjs : s.slots[j].state ≠ .queued := by rwa [hother hji] at hj
      rw [hother hji]
      exact (ungrouped_effCls (.inr fun hm => hjs (hmem hm).1)).trans ((if_neg hji).trans (hnone j hjs))

/-! ## The rest of a grant -/

theorem judgeStrict_waiting (s : State) (a : LineAddr) (d : EntryId) :
    (judgeStrict s a).entries[d].waiting = s.entries[d].waiting := by
  unfold judgeStrict
  split
  · split
    · exact addReason_waiting ..
    · rfl
  · rfl

theorem judgeStrict_untouched (s : State) (a : LineAddr) : Untouched s (judgeStrict s a) :=
  .of_frame (judgeStrict_waiting s a)

theorem addReason_untouched (s : State) (e : EntryId) (r : Reason) : Untouched s (addReason s e r) :=
  .of_frame fun d => addReason_waiting s e d r

theorem judgePressure_untouched (s : State) : Untouched s (judgePressure s) := .of_frame (judgePressure_waiting s)

theorem Passing.refl {s : State} (ho : OpLaw s) (hw : WaitLaw s) : Passing s s :=
  (Untouched.of_frame fun _ => rfl).passing ho hw

theorem mapFences_passing {s : State} {f : FenceRecord → FenceRecord} (ho : OpLaw s) (hw : WaitLaw s)
    (h : ∀ x, FenceMoves x (f x)) : Passing s (mapFences s f) :=
  ⟨mapFences_moves h, .of_eq, ho, hw⟩

theorem tidyLine_passing {s : State} (ho : OpLaw s) (hw : WaitLaw s) (a : LineAddr) : Passing s (tidyLine s a) :=
  ⟨.of_eq, tidyLine_kept s a, ho, hw⟩

theorem joinIfMerged_passing {s : State} (ho : OpLaw s) (hw : WaitLaw s) (i : SlotId) (a : Action) :
    Passing s (joinIfMerged s i a) := by
  unfold joinIfMerged
  split
  · next e _ =>
    have hmap : Passing s (mapFences s fun f =>
        if fenceHoldsSlot f i then { f with waitEntries := addTo (List.finRange 16) e f.waitEntries } else f) :=
      mapFences_passing ho hw fun _ => FenceMoves.ite ⟨rfl, rfl, .inl ⟨rfl, rfl⟩⟩
    unfold joinWaitSets
    dsimp only
    split
    · exact hmap.andThen (addReason_untouched _ e .fence)
    · exact hmap
  · exact .refl ho hw

theorem pressureIfAllocated_untouched (s : State) (a : Action) : Untouched s (pressureIfAllocated s a) := by
  have hsame : Untouched s s := .of_frame fun _ => rfl
  cases a
  case allocate => exact judgePressure_untouched s
  all_goals exact hsame

theorem followLine_passing {s : State} (ho : OpLaw s) (hw : WaitLaw s) (i : SlotId) (line : LineAddr) (a : Action) :
    Passing s (followLine s i line a) := by
  have hstrict := (judgeStrict_untouched s line).passing ho hw
  have hjoin := hstrict.trans (joinIfMerged_passing hstrict.ops hstrict.waits i a)
  have hpressure := hjoin.andThen (pressureIfAllocated_untouched _ a)
  exact hpressure.trans (tidyLine_passing hpressure.ops hpressure.waits line)

/-- The account of a grant, after the line's part: nothing that the laws read. -/
theorem account_untouched (s : State) (k cls : ClassId) (n : Nat) (rr : Bool) :
    Untouched s (judgeUrgency (movePointer (charge s k n) cls rr) k) := .of_frame fun e => by simp

/-- The slot's action, from what the grant acts on. -/
def acted (s : State) (i : SlotId) (a : Action) : State := doAction (ungrouped s i) i a

theorem acted_moves {s : State} {i : SlotId} (hq : s.slots[i].state = .queued) (a : Action) :
    StoreMoves s (acted s i a) :=
  acts_moves hq (doAction_acts _ i a) (by simp [acted, ungrouped]) (by simp [acted, ungrouped])
    (by simp [acted, ungrouped]) (by simp [acted, ungrouped]) (by simp [acted, ungrouped]) (by simp [acted, ungrouped])

/-- A grant after its action moves fences and lines only. -/
theorem grantSlot_passing {s : State} {i : SlotId} (hq : s.slots[i].state = .queued) (ho : OpLaw s) (hw : WaitLaw s)
    (a : Action) (cls : ClassId) (rr : Bool) : Passing (acted s i a) (grantSlot s i a cls rr) :=
  (followLine_passing (acts_ops ho hq (doAction_acts _ i a)) (acts_waits hw hq (doAction_acts _ i a)) i
    s.slots[i].line a).andThen (account_untouched _ _ cls _ rr)

theorem nextSlotGrant_cases (s : State) :
    nextSlotGrant s = s ∨ ∃ i a cls rr, s.slots[i].state = .queued ∧
      nextSlotGrant s = publish s (grantSlot s i a cls rr) := by
  unfold nextSlotGrant
  split
  · next i a cls rr hc => exact .inr ⟨i, a, cls, rr, grantableAction_queued (choose_slot hc), rfl⟩
  · exact .inl rfl
  · exact .inl rfl

/-- The Request Store's law once an event has published. -/
theorem StoreLaw.publish {s t : State} (h : StoreLaw s) (m : StoreMoves s t) (ho : OpLaw t) (hw : WaitLaw t) :
    StoreLaw (publish s t) := storeLaw_iff.2 ⟨(storeLaw_iff.1 h).1.publish m, ho, hw⟩

theorem grant_storeLaw {s : State} (h : StoreLaw s) : StoreLaw (nextSlotGrant s) := by
  obtain ⟨-, ho, hw⟩ := storeLaw_iff.1 h
  rcases nextSlotGrant_cases s with he | ⟨i, a, cls, rr, hq, he⟩
  · rwa [he]
  · rw [he]
    have hp := grantSlot_passing hq ho hw a cls rr
    exact h.publish ((acted_moves hq a).trans hp.moves) hp.ops hp.waits

theorem grant_queueLaw {s : State} (hs : StoreLaw s) (h : QueueLaw s) : QueueLaw (nextSlotGrant s) := by
  obtain ⟨hr, ho, hw⟩ := storeLaw_iff.1 hs
  rcases nextSlotGrant_cases s with he | ⟨i, a, cls, rr, hq, he⟩
  · rwa [he]
  · rw [he]
    have hp := grantSlot_passing hq ho hw a cls rr
    have hact : QueueLaw (acted s i a) := acts_queueLaw h hr.arrival_nodup hq (doAction_acts _ i a) (by simp [acted])
      (by simp [acted, ungrouped])
    exact (hact.moves hp.moves hp.kept : QueueLaw (grantSlot s i a cls rr))

theorem grant_tagLaw {s : State} (hs : StoreLaw s) (h : TagLaw s) : TagLaw (nextSlotGrant s) := by
  obtain ⟨-, ho, hw⟩ := storeLaw_iff.1 hs
  rcases nextSlotGrant_cases s with he | ⟨i, a, cls, rr, hq, he⟩
  · rwa [he]
  · rw [he]
    have hp := grantSlot_passing hq ho hw a cls rr
    exact (h.moves ((acted_moves hq a).trans hp.moves) : TagLaw (grantSlot s i a cls rr))

/-! ## RESTART (R167) -/

/-- RESTART before it publishes: the six steps. -/
def restarted (s : State) : State :=
  mapFences (clearUrgency (clearLines (discardAll (restartSlots (setPart s .restarting))))) restartFence

theorem restartSlot_moves (x : Slot) : SlotMoves x (restartSlot x) := by
  unfold restartSlot
  split
  · next h => exact ⟨rfl, rfl, rfl, .inr (.inl (by rw [h]; simp))⟩
  · next h => exact ⟨rfl, rfl, rfl, .inr (.inl (by rw [h]; simp))⟩
  · exact ⟨rfl, rfl, rfl, .inl ⟨rfl, rfl⟩⟩
  · exact .refl x
  · exact .refl x

theorem restartSlot_live {x : Slot} (h : x.state ≠ .free) : (restartSlot x).state ≠ .free := by
  unfold restartSlot
  split <;> simp_all

/-- No slot is QUEUED after RESTART, and none holds an effective class but what was not QUEUED and held one. -/
theorem restartSlot_queueing (x : Slot) :
    (restartSlot x).state ≠ .queued ∧ (x.state ≠ .queued → x.effCls = none → (restartSlot x).effCls = none) ∧
    (x.state = .queued → (restartSlot x).effCls = none) := by
  unfold restartSlot
  split <;> simp_all

/-- An ISSUED or DONE slot keeps its standing and its tag. -/
theorem restartSlot_op {x : Slot} (h : x.state = .issued ∨ x.state = .done) :
    (restartSlot x).state = x.state ∧ (restartSlot x).memTag = x.memTag := by
  unfold restartSlot
  split <;> simp_all

theorem restarted_slots (s : State) (i : SlotId) : (restarted s).slots[i] = restartSlot s.slots[i] := by
  have h : (restarted s).slots = tabulate fun i => restartSlot s.slots[i] := by
    simp only [restarted, mapFences_frame, clearUrgency_frame, clearLines_frame, discardAll_frame]
    rfl
  rw [h, get_tabulate]

theorem withdrawEntry_moves (e : EntryId) (f : FenceRecord) : FenceMoves f (withdrawEntry e f) :=
  FenceMoves.ite ⟨rfl, rfl, .inl ⟨rfl, rfl⟩⟩

theorem restartFence_moves (f : FenceRecord) : FenceMoves f (restartFence f) := by
  unfold restartFence
  split
  · next h => exact ⟨rfl, rfl, .inr ⟨h, rfl, rfl⟩⟩
  · exact .refl f
  · exact .refl f

theorem discardEntry_moves (s : State) (e : EntryId) : StoreMoves s (discardEntry s e) := by
  unfold discardEntry
  split
  · have hset (t : State) : StoreMoves t (setEntry t e MergeEntry.free) := .of_eq
    have href (t : State) : StoreMoves t (setMergeRef t s.entries[e].line none) := .of_eq
    exact (((recordEntryLoss_moves s e _).trans (hset _)).trans (mapFences_moves (withdrawEntry_moves e))).trans
      (href _)
  · exact .refl s

theorem restarted_moves (s : State) : StoreMoves s (restarted s) := by
  have hslots : StoreMoves s (restartSlots (setPart s .restarting)) := by
    have hget (i : SlotId) : (restartSlots (setPart s .restarting)).slots[i] = restartSlot s.slots[i] :=
      get_tabulate _ i
    refine .of_slots (fun i => ?_) fun i h => ?_
    · rw [hget]; exact restartSlot_moves _
    · rw [hget]; exact restartSlot_live h
  have hdiscard (t : State) : StoreMoves t (discardAll t) :=
    forEach_keeps (P := StoreMoves t) (fun u e hu => hu.trans (discardEntry_moves u e)) (.refl t)
  have hclear (t : State) : StoreMoves t (clearUrgency (clearLines t)) := .of_eq
  exact ((hslots.trans (hdiscard _)).trans (hclear _)).trans (mapFences_moves restartFence_moves)

theorem discardEntry_waiting {s : State} (h : ∀ d : EntryId, s.entries[d].waiting = []) (e d : EntryId) :
    (discardEntry s e).entries[d].waiting = [] := by
  unfold discardEntry
  split
  · simp only [setMergeRef_frame, mapFences_frame, get_setEntry, recordEntryLoss_frame]
    split
    · rfl
    · exact h d
  · exact h d

theorem restarted_waiting (s : State) (d : EntryId) : (restarted s).entries[d].waiting = [] := by
  have hslots (d : EntryId) : (restartSlots (setPart s .restarting)).entries[d].waiting = [] := by
    have : (restartSlots (setPart s .restarting)).entries = tabulate fun e => { s.entries[e] with waiting := [] } := rfl
    rw [this, get_tabulate]
  have hdiscard := forEach_keeps (P := fun t : State => ∀ d : EntryId, t.entries[d].waiting = [])
    (fun t e ht => discardEntry_waiting ht e) hslots
  simp only [restarted, mapFences_frame, clearUrgency_frame, clearLines_frame]
  exact hdiscard d

theorem restarted_ops {s : State} (h : OpLaw s) : OpLaw (restarted s) := by
  have htags : (restarted s).tags = s.tags := by
    simp only [restarted, mapFences_frame, clearUrgency_frame, clearLines_frame, discardAll_frame, restartSlots_frame,
      setPart_tags]
  intro τ op i hop hsrc
  rw [htags] at hop
  obtain ⟨hm, hst⟩ := h τ op i hop hsrc
  obtain ⟨hs', hm'⟩ := restartSlot_op hst
  rw [restarted_slots, hs', hm']
  exact ⟨hm, hst⟩

theorem restarted_waits (s : State) : WaitLaw (restarted s) := fun e i hi => by
  rw [restarted_waiting] at hi
  simp at hi

theorem discardEntry_lines (s : State) (e : EntryId) :
    (discardEntry s e).lines.map (·.line) = s.lines.map (·.line) := by
  unfold discardEntry
  split
  · rw [setMergeRef, map_line_updateLine _ _ (by intro l; rfl)]
    simp only [mapFences_frame, setEntry_lines, recordEntryLoss_frame]
  · rfl

/-- Every list of the Line Order Table is empty after RESTART (R73). -/
theorem restarted_lists (s : State) (a : LineAddr) : lineList (restarted s) a = [] := by
  have hl : (restarted s).lines = (clearLines (discardAll (restartSlots (setPart s .restarting)))).lines := by
    simp only [restarted, mapFences_frame, clearUrgency_frame]
  have hall : ∀ l ∈ (restarted s).lines, l.list = [] := by
    rw [hl, clearLines, setLines_lines]
    intro l hl
    obtain ⟨x, -, rfl⟩ := List.mem_map.1 (List.mem_of_mem_filter hl)
    rfl
  unfold lineList findLine
  cases hf : (restarted s).lines.find? (·.line == a) with
  | none => rfl
  | some l => exact hall l (List.mem_of_find?_eq_some hf)

theorem restarted_lines {s : State} (h : (s.lines.map (·.line)).Nodup) : ((restarted s).lines.map (·.line)).Nodup := by
  have hl : (restarted s).lines = (clearLines (discardAll (restartSlots (setPart s .restarting)))).lines := by
    simp only [restarted, mapFences_frame, clearUrgency_frame]
  have hdiscard : (discardAll (restartSlots (setPart s .restarting))).lines.map (·.line) = s.lines.map (·.line) := by
    unfold discardAll
    rw [forEach_eq (fun t : State => t.lines.map (·.line)) discardEntry_lines]
    simp only [restartSlots_frame, setPart_lines]
  rw [hl, clearLines, setLines_lines]
  refine List.Nodup.sublist (List.filter_sublist.map _) ?_
  have hcomp : (discardAll (restartSlots (setPart s .restarting))).lines.map ((·.line) ∘ fun l => { l with list := [] })
      = s.lines.map (·.line) := hdiscard
  rw [List.map_map, hcomp]
  exact h

theorem restarted_queues (s : State) : (restarted s).queues = Vector.replicate 6 [] := by
  simp only [restarted, mapFences_frame, clearUrgency_frame, clearLines_frame, discardAll_frame, restartSlots,
    setEntries_queues, setQueues_queues]

theorem filter_queued_nil {s : State} (h : ∀ i : SlotId, s.slots[i].state ≠ .queued) {p : SlotId → Prop}
    [DecidablePred p] : s.arrival.filter (fun i => decide (s.slots[i].state = .queued ∧ p i)) = [] := by
  rw [List.filter_eq_nil_iff]
  intro i _
  simp only [h, false_and, decide_false, Bool.false_eq_true, not_false_eq_true]

theorem restarted_queueLaw {s : State} (h : QueueLaw s) : QueueLaw (restarted s) := by
  obtain ⟨-, hnd, -, -, hnone⟩ := h
  have hqueued (i : SlotId) : (restarted s).slots[i].state ≠ .queued := by
    rw [restarted_slots]
    exact (restartSlot_queueing _).1
  refine ⟨fun k => ?_, restarted_lines hnd, fun a => ?_, fun a older x younger hl => ?_, fun i _ => ?_⟩
  · rw [filter_queued_nil hqueued, restarted_queues]
    simp only [Fin.getElem_fin, Vector.getElem_replicate]
  · rw [filter_queued_nil hqueued, restarted_lists]
  · rw [restarted_lists] at hl
    simp at hl
  · obtain ⟨-, hkeep, hdrop⟩ := restartSlot_queueing s.slots[i]
    rw [restarted_slots]
    by_cases hq : s.slots[i].state = .queued
    · exact hdrop hq
    · exact hkeep hq (hnone i hq)

theorem answerMgmt_untouched (s : State) (st : MgmtStatus) (v : Word) : Untouched s (answerMgmt s st v) :=
  .of_frame fun _ => by simp

theorem restartPart_cases (s : State) :
    Untouched s (restartPart s) ∨ Untouched (conclude s (restarted s)) (restartPart s) := by
  unfold restartPart
  split
  · exact .inr (answerMgmt_untouched _ _ _)
  · exact .inr (answerMgmt_untouched _ _ _)
  · exact .inr (answerMgmt_untouched _ _ _)
  · exact .inl (answerMgmt_untouched _ _ _)

theorem restart_storeLaw {s : State} (h : StoreLaw s) : StoreLaw (restartPart s) := by
  obtain ⟨-, ho, -⟩ := storeLaw_iff.1 h
  rcases restartPart_cases s with u | u
  · exact h.untouched u
  · exact (h.conclude (restarted_moves s) (restarted_ops ho) (restarted_waits s)).untouched u

theorem restart_queueLaw {s : State} (h : QueueLaw s) : QueueLaw (restartPart s) := by
  rcases restartPart_cases s with u | u
  · exact h.moves u.moves u.kept
  · exact (restarted_queueLaw h).conclude.moves u.moves u.kept

theorem restart_tagLaw {s : State} (h : TagLaw s) : TagLaw (restartPart s) := by
  rcases restartPart_cases s with u | u
  · exact h.moves u.moves
  · exact (h.moves (restarted_moves s)).conclude.moves u.moves

/-! ## What a presentation is answered with (R6, R7) -/

theorem accessOf_fields {r : Request} {a : AccessReq} (h : accessOf r = some a) :
    a.initiator = initiatorOf r ∧ a.tag = tagOf r := by
  cases r <;> simp only [accessOf, Option.some.injEq, reduceCtorEq] at h <;> subst h <;> exact ⟨rfl, rfl⟩

/-- A refusal of a presentation into a given record (R10). -/
def refusedInto (s : State) (r : Request) (st : Status) (k : RefusalId) : State :=
  setAnswer
    (countRefusal
      (setResponses
        (setRefusals s (put s.refusals k
          (some { initiator := initiatorOf r, tag := tagOf r, kind := kindOf r, status := st })))
        (s.responses ++ [.refusal k]))
      st)
    (some .accept)

theorem refuse_cases (s : State) (r : Request) (st : Status) :
    (refuse s r st = deferUnclassed s ∧ ∀ k : RefusalId, s.refusals[k].isSome = true) ∨
    ∃ k : RefusalId, s.refusals[k] = none ∧ (∀ j < k, s.refusals[j].isSome = true) ∧
      refuse s r st = refusedInto s r st k := by
  unfold refuse
  split
  · next hn => exact .inl ⟨rfl, fun k => by simpa using firstWhere_eq_none.1 hn k⟩
  · next k hk =>
    obtain ⟨hnone, hlow⟩ := firstWhere_eq_some.1 hk
    exact .inr ⟨k, Option.isNone_iff_eq_none.1 hnone, fun j hj => by simpa using hlow j hj, rfl⟩

theorem takeAccess_cases (s : State) (a : AccessReq) (w : WindowIndex) :
    takeAccess s a w = deferClass s (requestClass s a w) ∨
    ∃ i : SlotId, s.slots[i].state = .free ∧ takeAccess s a w = acceptAccess s a w i := by
  unfold takeAccess
  split
  · next i hi =>
    split
    · exact .inr ⟨i, beq_iff_eq.1 (firstWhere_eq_some.1 hi).1, rfl⟩
    · exact .inl rfl
  · exact .inl rfl

theorem takeFence_cases (s : State) (i : InitiatorId) (g : ReqTag) :
    (takeFence s i g = deferUnclassed s ∧ ∀ k : FenceId, s.fences[k].state ≠ .free) ∨
    ∃ k : FenceId, s.fences[k].state = .free ∧ (∀ j < k, s.fences[j].state ≠ .free) ∧
      takeFence s i g = acceptFence s i g k := by
  unfold takeFence
  split
  · next k hk =>
    obtain ⟨hfree, hlow⟩ := firstWhere_eq_some.1 hk
    exact .inr ⟨k, beq_iff_eq.1 hfree, fun j hj => beq_eq_false_iff_ne.1 (hlow j hj), rfl⟩
  · next hn => exact .inl ⟨rfl, fun k => beq_eq_false_iff_ne.1 (firstWhere_eq_none.1 hn k)⟩

theorem checkFailure_eq_none {s : State} {r : Request} (h : checkFailure s r = none) :
    shapeOk r = true ∧ initiatorEnabled s.active (initiatorOf r) = true ∧ tagInUse s (initiatorOf r) (tagOf r) = false ∧
    ∀ a, accessOf r = some a → windowFailure s a = none := by
  unfold checkFailure at h
  split at h
  · cases h
  · next hshape =>
    split at h
    · cases h
    · next hen =>
      split at h
      · cases h
      · next htag =>
        refine ⟨by simpa using hshape, by simpa using hen, by simpa using htag, fun a ha => ?_⟩
        simpa only [ha] using h

theorem windowFailure_eq_none {s : State} {a : AccessReq} (h : windowFailure s a = none) :
    ∃ w, coveringWindow s.active a.line = some w ∧
      accessAllowed (windowAttrs s.active w) (initiatorGroup s.active a.initiator) a.kind = true := by
  unfold windowFailure at h
  split at h
  · cases h
  · next w hw =>
    split at h
    · next hallow => exact ⟨w, hw, hallow⟩
    · cases h

/-- Every presentation is DEFERred, refused into a FREE record, or accepted into a FREE slot or fence record under a tag
that is not in use. -/
theorem intake_cases (s : State) (r : Request) :
    intake s r = deferUnclassed s ∨ (∃ k, intake s r = deferClass s k) ∨
    (∃ (st : Status) (k : RefusalId), s.refusals[k] = none ∧ intake s r = refusedInto s r st k) ∨
    (∃ (a : AccessReq) (w : WindowIndex) (i : SlotId), s.slots[i].state = .free ∧
      s.tagTable[a.initiator][a.tag] = false ∧ intake s r = acceptAccess s a w i) ∨
    (∃ (i : InitiatorId) (g : ReqTag) (k : FenceId), s.fences[k].state = .free ∧ s.tagTable[i][g] = false ∧
      intake s r = acceptFence s i g k) := by
  unfold intake
  split
  · exact .inl rfl
  · split
    · next st _ =>
      rcases refuse_cases s r st with ⟨h, -⟩ | ⟨k, hk, -, h⟩
      · exact .inl h
      · exact .inr (.inr (.inl ⟨st, k, hk, h⟩))
    · next hpass =>
      obtain ⟨-, -, htag, hwin⟩ := checkFailure_eq_none hpass
      unfold takePassing
      split
      · next a ha =>
        obtain ⟨w, hw, -⟩ := windowFailure_eq_none (hwin a ha)
        obtain ⟨hi, hg⟩ := accessOf_fields ha
        simp only [hw]
        rcases takeAccess_cases s a w with h | ⟨i, hfree, h⟩
        · exact .inr (.inl ⟨_, h⟩)
        · exact .inr (.inr (.inr (.inl ⟨a, w, i, hfree, show tagInUse s a.initiator a.tag = false by rwa [hi, hg], h⟩)))
      · rcases takeFence_cases s (initiatorOf r) (tagOf r) with ⟨h, -⟩ | ⟨k, hfree, -, h⟩
        · exact .inl h
        · exact .inr (.inr (.inr (.inr ⟨_, _, k, hfree, htag, h⟩)))

/-! ## The law of tags where a tag's holders are known -/

theorem TagHeldOnce.of_none {s : State} {i : InitiatorId} {g : ReqTag} (table : s.tagTable[i][g] = false)
    (slots : ∀ j, ¬ SlotHolds s i g j) (fences : ∀ k, ¬ FenceHolds s i g k) : TagHeldOnce s i g := by
  simp only [TagHeldOnce, table, slots, fences, exists_false, or_self, false_implies, implies_true,
    not_false_eq_true, and_self, Bool.false_eq_true]

theorem TagHeldOnce.of_slot {s : State} {i : InitiatorId} {g : ReqTag} {j : SlotId} (table : s.tagTable[i][g] = true)
    (slots : ∀ j', SlotHolds s i g j' ↔ j' = j) (fences : ∀ k, ¬ FenceHolds s i g k) : TagHeldOnce s i g := by
  refine ⟨⟨fun _ => .inl ⟨j, (slots j).2 rfl⟩, fun _ => table⟩, fun j' j'' h' h'' => ?_,
    fun k _ h => absurd h (fences k),
    fun _ k h => fences k h.2⟩
  exact ((slots j').1 h').trans ((slots j'').1 h'').symm

theorem TagHeldOnce.of_fence {s : State} {i : InitiatorId} {g : ReqTag} {k : FenceId} (table : s.tagTable[i][g] = true)
    (slots : ∀ j, ¬ SlotHolds s i g j) (fences : ∀ k', FenceHolds s i g k' ↔ k' = k) : TagHeldOnce s i g := by
  refine ⟨⟨fun _ => .inr ⟨k, (fences k).2 rfl⟩, fun _ => table⟩, fun j _ h => absurd h (slots j),
    fun k' k'' h' h'' => ?_, fun j _ h => slots j h.1⟩
  exact ((fences k').1 h').trans ((fences k'').1 h'').symm

/-- Where the table does not hold a tag, nothing does. -/
theorem TagHeldOnce.none_of_table {s : State} {i : InitiatorId} {g : ReqTag} (h : TagHeldOnce s i g)
    (table : s.tagTable[i][g] = false) : (∀ j, ¬ SlotHolds s i g j) ∧ ∀ k, ¬ FenceHolds s i g k := by
  have hno : ¬ ((∃ j, SlotHolds s i g j) ∨ ∃ k, FenceHolds s i g k) := fun hh => by
    have := h.1.2 hh
    rw [table] at this
    cases this
  exact ⟨fun j hj => hno (.inl ⟨j, hj⟩), fun k hk => hno (.inr ⟨k, hk⟩)⟩

/-- One tag of one initiator written in the Tag Table. -/
theorem get_tagTable_put (T : Vector (Vector Bool 64) 32) (i j : InitiatorId) (g h : ReqTag) (b : Bool) :
    (put T i (put T[i] g b))[j][h] = if j = i ∧ h = g then b else T[j][h] := by
  rw [get_put]
  by_cases hj : j = i
  · subst hj
    rw [if_pos rfl, get_put]
    simp only [true_and]
  · rw [if_neg hj, if_neg fun hh => hj hh.1]

/-! ## A refusal -/

theorem refusedInto_storeLaw {s : State} (h : StoreLaw s) (r : Request) (st : Status) {k : RefusalId}
    (hk : s.refusals[k] = none) : StoreLaw (refusedInto s r st k) := by
  obtain ⟨hr, ho, hw⟩ := storeLaw_iff.1 h
  have hslots : (refusedInto s r st k).slots = s.slots := by simp [refusedInto]
  have hresp : (refusedInto s r st k).responses = s.responses ++ [.refusal k] := by simp [refusedInto]
  have hfences : (refusedInto s r st k).fences = s.fences := by simp [refusedInto]
  have harrival : (refusedInto s r st k).arrival = s.arrival := by simp [refusedInto]
  have horder : (refusedInto s r st k).fenceOrder = s.fenceOrder := by simp [refusedInto]
  have htags : (refusedInto s r st k).tags = s.tags := by simp [refusedInto]
  have hentries : (refusedInto s r st k).entries = s.entries := by simp [refusedInto]
  have hrefusals : (refusedInto s r st k).refusals = put s.refusals k
      (some { initiator := initiatorOf r, tag := tagOf r, kind := kindOf r, status := st }) := by simp [refusedInto]
  have hnew : Ref.refusal k ∉ s.responses := fun hm => by
    have := (hr.refusal_ref k).1 hm
    rw [hk] at this
    cases this
  refine storeLaw_iff.2 ⟨?_, by rwa [OpLaw, hslots, htags], by rwa [WaitLaw, hslots, hentries]⟩
  constructor
  case arrival_nodup => rw [harrival]; exact hr.arrival_nodup
  case mem_arrival => rw [harrival, hslots]; exact hr.mem_arrival
  case undelivered => rw [hslots]; exact hr.undelivered
  case slot_ref =>
    intro i
    rw [hresp, hslots, ← hr.slot_ref]
    simp only [List.mem_append, List.mem_singleton, reduceCtorEq, or_false]
  case nodup =>
    rw [hresp]
    exact List.nodup_append.2 ⟨hr.nodup, List.nodup_singleton _, fun x hx y hy => by
      rw [List.mem_singleton.1 hy]
      exact fun he => hnew (he ▸ hx)⟩
  case fence_ref =>
    intro j
    rw [hresp, hfences, ← hr.fence_ref]
    simp only [List.mem_append, List.mem_singleton, reduceCtorEq, or_false]
  case refusal_ref =>
    intro j
    rw [hresp, hrefusals, get_put]
    split
    · next hj => simp only [hj, List.mem_append, List.mem_singleton, or_true, Option.isSome_some]
    · next hj => simp only [List.mem_append, List.mem_singleton, Ref.refusal.injEq, hj, or_false, hr.refusal_ref]
  case done_status => rw [hslots]; exact hr.done_status
  case completed_status => rw [hfences]; exact hr.completed_status
  case order_nodup => rw [horder]; exact hr.order_nodup
  case mem_order => rw [horder, hfences]; exact hr.mem_order

theorem refusedInto_queueLaw {s : State} (h : QueueLaw s) (r : Request) (st : Status) (k : RefusalId) :
    QueueLaw (refusedInto s r st k) := by
  have hslots : (refusedInto s r st k).slots = s.slots := by simp [refusedInto]
  refine h.kept ?_ (.of_eq hslots (by simp [refusedInto]) (by simp [refusedInto]))
  rw [filter_staysIn_of_state fun i hi => by rwa [hslots]]
  simp [refusedInto]

theorem refusedInto_tagLaw {s : State} (h : TagLaw s) (r : Request) (st : Status) (k : RefusalId) :
    TagLaw (refusedInto s r st k) := by
  have hslots : (refusedInto s r st k).slots = s.slots := by simp [refusedInto]
  have hfences : (refusedInto s r st k).fences = s.fences := by simp [refusedInto]
  have htable : (refusedInto s r st k).tagTable = s.tagTable := by simp [refusedInto]
  intro i g
  exact (tagLaw_iff.1 h i g).congr (by rw [htable]) (fun j => by simp only [SlotHolds, hslots])
    fun k => by simp only [FenceHolds, hfences]

/-! ## The acceptance of a READ or WRITE (R8, R37, R58) -/

/-- The slot entered in its queue, the arrival list and its line's list, before any class is computed. -/
def entered (s : State) (a : AccessReq) (w : WindowIndex) (i : SlotId) : State :=
  joinLine (enqueue (setSlot (markTag s a.initiator a.tag) i (acceptedSlot s a w)) i (requestClass s a w)) a.line i

theorem entered_slots (s : State) (a : AccessReq) (w : WindowIndex) (i : SlotId) :
    (entered s a w i).slots = put s.slots i (acceptedSlot s a w) := by
  simp only [entered, joinLine_frame, enqueue_frame, setSlot, setSlots_slots, markTag_frame]

theorem entered_queues (s : State) (a : AccessReq) (w : WindowIndex) (i : SlotId) :
    (entered s a w i).queues = put s.queues (requestClass s a w) (s.queues[requestClass s a w] ++ [i]) := by
  simp only [entered, joinLine_frame, enqueue, setArrival_queues, setQueues_queues, setSlot_queues, markTag_frame]

theorem entered_arrival (s : State) (a : AccessReq) (w : WindowIndex) (i : SlotId) :
    (entered s a w i).arrival = s.arrival ++ [i] := by
  simp only [entered, joinLine_frame, enqueue, setArrival_arrival, setSlot_arrival, markTag_frame]

theorem entered_tagTable (s : State) (a : AccessReq) (w : WindowIndex) (i : SlotId) :
    (entered s a w i).tagTable = put s.tagTable a.initiator (put s.tagTable[a.initiator] a.tag true) := by
  simp only [entered, joinLine_frame, enqueue_frame, setSlot_tagTable, markTag, setTagTable_tagTable]

/-- What an entry leaves. -/
theorem entered_frame (s : State) (a : AccessReq) (w : WindowIndex) (i : SlotId) :
    (entered s a w i).entries = s.entries ∧ (entered s a w i).tags = s.tags ∧ (entered s a w i).fences = s.fences ∧
    (entered s a w i).fenceOrder = s.fenceOrder ∧ (entered s a w i).responses = s.responses ∧
    (entered s a w i).refusals = s.refusals := by
  simp [entered]

theorem entered_findLine (s : State) (a : AccessReq) (w : WindowIndex) (i : SlotId) :
    lineList (entered s a w i) a.line = lineList s a.line ++ [i] ∧
    mergeRef (entered s a w i) a.line = mergeRef s a.line ∧
    ∀ b, b ≠ a.line → findLine (entered s a w i) b = findLine s b :=
  joinLine_spec (enqueue (setSlot (markTag s a.initiator a.tag) i (acceptedSlot s a w)) i (requestClass s a w)) a.line i

theorem entered_lists (s : State) (a : AccessReq) (w : WindowIndex) (i : SlotId) (b : LineAddr) :
    lineList (entered s a w i) b = if b = a.line then lineList s b ++ [i] else lineList s b := by
  obtain ⟨hself, -, hother⟩ := entered_findLine s a w i
  split
  · next hb => rw [hb]; exact hself
  · next hb => exact lineList_eq_of_findLine (hother b hb)

theorem joinLine_lines {s : State} (h : (s.lines.map (·.line)).Nodup) (a : LineAddr) (i : SlotId) :
    ((joinLine s a i).lines.map (·.line)).Nodup := by
  unfold joinLine
  split
  · rwa [map_line_updateLine s a (by intro l; rfl)]
  · next hnone =>
    rw [setLines_lines, List.map_append]
    refine List.nodup_append.2 ⟨h, List.nodup_singleton _, fun x hx y hy => ?_⟩
    obtain ⟨l, hl, rfl⟩ := List.mem_map.1 hx
    obtain rfl : y = a := List.mem_singleton.1 hy
    simpa using List.find?_eq_none.1 hnone l hl

/-- The acceptance, before its judgement of STRICT READs and its answer. -/
def accepted (s : State) (a : AccessReq) (w : WindowIndex) (i : SlotId) : State := recompute (entered s a w i) a.line

theorem acceptAccess_untouched (s : State) (a : AccessReq) (w : WindowIndex) (i : SlotId) :
    Untouched (accepted s a w i) (acceptAccess s a w i) := by
  have hend (t : State) : Untouched t (setAnswer (countAccepted t (requestClass s a w)) (some .accept)) :=
    .of_frame fun _ => by simp
  exact (judgeStrict_untouched (accepted s a w i) a.line).trans (hend _)

theorem accepted_frame (s : State) (a : AccessReq) (w : WindowIndex) (i : SlotId) :
    (accepted s a w i).entries = s.entries ∧ (accepted s a w i).tags = s.tags ∧ (accepted s a w i).fences = s.fences ∧
    (accepted s a w i).fenceOrder = s.fenceOrder ∧ (accepted s a w i).responses = s.responses ∧
    (accepted s a w i).refusals = s.refusals := by
  simp only [accepted, recompute_frame]
  exact entered_frame s a w i

theorem accepted_arrival (s : State) (a : AccessReq) (w : WindowIndex) (i : SlotId) :
    (accepted s a w i).arrival = s.arrival ++ [i] := by
  simp only [accepted, recompute_frame, entered_arrival]

theorem accepted_queues (s : State) (a : AccessReq) (w : WindowIndex) (i : SlotId) :
    (accepted s a w i).queues = put s.queues (requestClass s a w) (s.queues[requestClass s a w] ++ [i]) := by
  simp only [accepted, recompute_frame, entered_queues]

theorem accepted_tagTable (s : State) (a : AccessReq) (w : WindowIndex) (i : SlotId) :
    (accepted s a w i).tagTable = put s.tagTable a.initiator (put s.tagTable[a.initiator] a.tag true) := by
  simp only [accepted, recompute_frame, entered_tagTable]

theorem accepted_lists (s : State) (a : AccessReq) (w : WindowIndex) (i : SlotId) (b : LineAddr) :
    lineList (accepted s a w i) b = if b = a.line then lineList s b ++ [i] else lineList s b := by
  rw [accepted, recompute_lineList, entered_lists]

/-- The slots after an acceptance: the new one's captures, and the others', each but for its effective class. -/
theorem accepted_slots (s : State) (a : AccessReq) (w : WindowIndex) (i j : SlotId) :
    (accepted s a w i).slots[j] =
      { (if j = i then acceptedSlot s a w else s.slots[j]) with effCls := (accepted s a w i).slots[j].effCls } := by
  rw [accepted, recompute_slots, entered_slots, get_put]

theorem accepted_slots_ne (s : State) (a : AccessReq) (w : WindowIndex) {i j : SlotId} (h : j ≠ i) :
    (accepted s a w i).slots[j] = { s.slots[j] with effCls := (accepted s a w i).slots[j].effCls } := by
  rw [accepted_slots, if_neg h]

theorem accepted_slots_self (s : State) (a : AccessReq) (w : WindowIndex) (i : SlotId) :
    (accepted s a w i).slots[i] = { acceptedSlot s a w with effCls := (accepted s a w i).slots[i].effCls } := by
  rw [accepted_slots, if_pos rfl]

theorem accepted_slots_off (s : State) (a : AccessReq) (w : WindowIndex) {i j : SlotId} (h : j ≠ i)
    (hoff : j ∉ lineList s a.line) : (accepted s a w i).slots[j] = s.slots[j] := by
  have hnot : j ∉ lineList (entered s a w i) a.line := by
    rw [entered_lists, if_pos rfl]
    simp [h, hoff]
  rw [accepted, recompute_slots_not_mem hnot, entered_slots, get_put_ne _ _ h]

theorem accepted_storeLaw {s : State} (h : StoreLaw s) (a : AccessReq) (w : WindowIndex) {i : SlotId}
    (hi : s.slots[i].state = .free) : StoreLaw (accepted s a w i) := by
  obtain ⟨hr, ho, hw⟩ := storeLaw_iff.1 h
  obtain ⟨hentries, htags, hfences, horder, hresp, hrefusals⟩ := accepted_frame s a w i
  have hold {j : SlotId} (hj : s.slots[j].state ≠ .free) : j ≠ i := by
    rintro rfl
    exact hj hi
  have hnew : i ∉ s.arrival := fun hm => (hr.mem_arrival i).1 hm hi
  have hself := accepted_slots_self s a w i
  have hstate : (accepted s a w i).slots[i].state = .queued := by rw [hself]; rfl
  have hother {j : SlotId} (hj : j ≠ i) := accepted_slots_ne s a w hj
  refine storeLaw_iff.2 ⟨?_, fun τ op j hop hsrc => ?_, fun e j hj => ?_⟩
  · constructor
    case arrival_nodup =>
      rw [accepted_arrival]
      exact List.nodup_append.2 ⟨hr.arrival_nodup, List.nodup_singleton i, fun x hx y hy => by
        rw [List.mem_singleton.1 hy]
        rintro rfl
        exact hnew hx⟩
    case mem_arrival =>
      intro j
      rw [accepted_arrival, List.mem_append, List.mem_singleton]
      by_cases hj : j = i
      · subst hj
        simp only [hstate, or_true, ne_eq, reduceCtorEq, not_false_eq_true]
      · rw [hother hj, hr.mem_arrival]
        simp only [hj, or_false]
    case undelivered =>
      intro j hf hd
      by_cases hj : j = i
      · subst hj
        rw [hself]
        rfl
      · rw [hother hj] at hf hd ⊢
        exact hr.undelivered j hf hd
    case slot_ref =>
      intro j
      rw [hresp, hr.slot_ref]
      by_cases hj : j = i
      · subst hj
        simp only [hi, hstate, reduceCtorEq, false_and]
      · rw [hother hj]
    case nodup => rw [hresp]; exact hr.nodup
    case fence_ref => rw [hresp, hfences]; exact hr.fence_ref
    case refusal_ref => rw [hresp, hrefusals]; exact hr.refusal_ref
    case done_status =>
      intro j hd
      have hj : j ≠ i := by
        rintro rfl
        rw [hstate] at hd
        cases hd
      rw [hother hj] at hd ⊢
      exact hr.done_status j hd
    case completed_status => rw [hfences]; exact hr.completed_status
    case order_nodup => rw [horder]; exact hr.order_nodup
    case mem_order => rw [horder, hfences]; exact hr.mem_order
  · rw [htags] at hop
    obtain ⟨hm, hst⟩ := ho τ op j hop hsrc
    rw [hother (hold (by rcases hst with hst | hst <;> simp only [hst, ne_eq, reduceCtorEq, not_false_eq_true]))]
    exact ⟨hm, hst⟩
  · rw [hentries] at hj ⊢
    obtain ⟨hst, huniq⟩ := hw e j hj
    rw [hother (hold (by simp only [hst, ne_eq, reduceCtorEq, not_false_eq_true]))]
    exact ⟨hst, huniq⟩

/-- A test of the QUEUED slots finds the old ones as before, then the new one. -/
theorem accepted_filter {s : State} (h : RefLaw s) (a : AccessReq) (w : WindowIndex) {i : SlotId}
    (hi : s.slots[i].state = .free) {p q : SlotId → Prop} [DecidablePred p] [DecidablePred q]
    (hpq : ∀ j : SlotId, j ≠ i → (q j ↔ p j)) :
    (accepted s a w i).arrival.filter (fun j => decide ((accepted s a w i).slots[j].state = .queued ∧ q j)) =
      s.arrival.filter (fun j => decide (s.slots[j].state = .queued ∧ p j)) ++ if q i then [i] else [] := by
  have hstate : (accepted s a w i).slots[i].state = .queued := by rw [accepted_slots_self]; rfl
  rw [accepted_arrival, List.filter_append]
  congr 1
  · refine List.filter_congr fun j hj => ?_
    have hji : j ≠ i := by
      rintro rfl
      exact (h.mem_arrival j).1 hj hi
    rw [accepted_slots_ne s a w hji]
    simp only [hpq j hji]
  · simp only [List.filter_singleton, hstate, true_and, Bool.cond_decide]

theorem accepted_queueLaw {s : State} (hr : RefLaw s) (h : QueueLaw s) (a : AccessReq) (w : WindowIndex) {i : SlotId}
    (hi : s.slots[i].state = .free) : QueueLaw (accepted s a w i) := by
  obtain ⟨hqueues, hnd, hlists, heff, hnone⟩ := h
  have hmem {j : SlotId} {b : LineAddr} (hj : j ∈ lineList s b) : s.slots[j].state = .queued ∧ s.slots[j].line = b := by
    rw [hlists] at hj
    exact of_decide_eq_true (List.mem_filter.1 hj).2
  have hnew (b : LineAddr) : i ∉ lineList s b := fun hm => by
    have := (hmem hm).1
    rw [hi] at this
    cases this
  refine ⟨fun k => ?_, ?_, fun b => ?_, fun b => ?_, fun j hj => ?_⟩
  · have hcls : (accepted s a w i).slots[i].cls = requestClass s a w := by rw [accepted_slots_self]; rfl
    rw [accepted_filter hr a w hi (p := fun j => s.slots[j].cls = k) fun j hj => by rw [accepted_slots_ne s a w hj],
      ← hqueues, accepted_queues, get_put, hcls]
    by_cases hk : k = requestClass s a w
    · subst hk
      simp only [if_true]
    · simp only [hk, Ne.symm hk, if_false, List.append_nil]
  · rw [accepted]
    simp only [recompute_frame]
    exact joinLine_lines (by simpa only [enqueue_frame, setSlot_lines, markTag_frame] using hnd) _ _
  · have hline : (accepted s a w i).slots[i].line = a.line := by rw [accepted_slots_self]; rfl
    rw [accepted_filter hr a w hi (p := fun j => s.slots[j].line = b) fun j hj => by rw [accepted_slots_ne s a w hj],
      ← hlists, accepted_lists, hline]
    by_cases hb : b = a.line
    · subst hb
      simp only [if_true]
    · simp only [hb, Ne.symm hb, if_false, List.append_nil]
  · by_cases hb : b = a.line
    · subst hb
      refine recompute_effectiveOn ?_
      rw [entered_lists, if_pos rfl]
      refine List.nodup_append.2 ⟨?_, List.nodup_singleton i, fun x hx y hy => ?_⟩
      · rw [hlists]
        exact hr.arrival_nodup.filter _
      · rw [List.mem_singleton.1 hy]
        rintro rfl
        exact hnew _ hx
    · have hl : lineList (accepted s a w i) b = lineList s b := by rw [accepted_lists, if_neg hb]
      refine (heff b).congr hl fun j hj => ?_
      have hji : j ≠ i := by
        rintro rfl
        exact hnew b hj
      rw [accepted_slots_off s a w hji fun hm => hb ((hmem hj).2.symm.trans (hmem hm).2)]
      exact ⟨rfl, rfl, rfl⟩
  · have hji : j ≠ i := by
      rintro rfl
      rw [accepted_slots_self] at hj
      exact hj rfl
    have hjs : s.slots[j].state ≠ .queued := by rwa [accepted_slots_ne s a w hji] at hj
    rw [accepted_slots_off s a w hji fun hm => hjs (hmem hm).1]
    exact hnone j hjs

theorem accepted_tagLaw {s : State} (h : TagLaw s) (a : AccessReq) (w : WindowIndex) {i : SlotId}
    (hi : s.slots[i].state = .free) (htag : s.tagTable[a.initiator][a.tag] = false) : TagLaw (accepted s a w i) := by
  obtain ⟨-, -, hfences, -, -, -⟩ := accepted_frame s a w i
  intro ini g
  have hfence (k : FenceId) : FenceHolds (accepted s a w i) ini g k ↔ FenceHolds s ini g k := by
    simp only [FenceHolds, hfences]
  have hother {j : SlotId} (hj : j ≠ i) : SlotHolds (accepted s a w i) ini g j ↔ SlotHolds s ini g j := by
    unfold SlotHolds
    rw [accepted_slots_ne s a w hj]
  have hself : SlotHolds (accepted s a w i) ini g i ↔ a.initiator = ini ∧ a.tag = g := by
    rw [SlotHolds, accepted_slots_self]
    simp only [acceptedSlot, ne_eq, reduceCtorEq, not_false_eq_true, true_and]
  have hfree : ¬ SlotHolds s ini g i := fun hh => hh.1 hi
  by_cases hg : ini = a.initiator ∧ g = a.tag
  · obtain ⟨rfl, rfl⟩ := hg
    obtain ⟨hslots, hfs⟩ := (tagLaw_iff.1 h _ _).none_of_table htag
    refine TagHeldOnce.of_slot (j := i) ?_ (fun j => ?_) fun k => (hfence k).not.2 (hfs k)
    · rw [accepted_tagTable, get_tagTable_put, if_pos ⟨rfl, rfl⟩]
    · by_cases hj : j = i
      · subst hj
        simp only [hself, and_self]
      · simp only [hother hj, hslots j, hj]
  · refine (tagLaw_iff.1 h ini g).congr ?_ (fun j => ?_) hfence
    · rw [accepted_tagTable, get_tagTable_put, if_neg hg]
    · by_cases hj : j = i
      · subst hj
        rw [hself]
        exact ⟨fun hh => absurd ⟨hh.1.symm, hh.2.symm⟩ hg, fun hh => absurd hh hfree⟩
      · exact hother hj

/-- A publication reads of the state an event begins in only which slots are DONE and which fences are COMPLETED. -/
theorem publish_congr {s s' t : State} (slots : ∀ i : SlotId, s.slots[i].state = .done ↔ s'.slots[i].state = .done)
    (fences : ∀ k : FenceId, t.fences[k].state = .completed →
      (s.fences[k].state = .completed ↔ s'.fences[k].state = .completed)) : publish s t = publish s' t := by
  have hslot : newlyDone s t = newlyDone s' t := by
    funext i
    rw [Bool.eq_iff_iff]
    simp only [newlyDone, Bool.and_eq_true, beq_iff_eq, bne_iff_ne, ne_eq, slots i]
  have hfence : newlyCompleted s t = newlyCompleted s' t := by
    funext k
    rw [Bool.eq_iff_iff]
    simp only [newlyCompleted, Bool.and_eq_true, beq_iff_eq, bne_iff_ne, ne_eq]
    exact and_congr_right fun hc => not_congr (fences k hc)
  unfold publish readyRefs
  rw [hslot, hfence]

/-! ## The acceptance of a FENCE (R9, R147 to R149) -/

/-- The fence record filled, before it is seen whether it waits for anything. -/
def registered (s : State) (i : InitiatorId) (g : ReqTag) (k : FenceId) : State :=
  setFenceOrder (setFence (markTag s i g) k (capturedFence s i g)) (s.fenceOrder ++ [k])

/-- The fence record filled and settled, and the drains of its entries demanded. -/
def demandedFor (s : State) (i : InitiatorId) (g : ReqTag) (k : FenceId) : State :=
  demandFence (setFenceOrder (setFence (markTag s i g) k (settleFence (capturedFence s i g))) (s.fenceOrder ++ [k]))
    (capturedFence s i g).waitEntries

theorem acceptFence_eq (s : State) (i : InitiatorId) (g : ReqTag) (k : FenceId) :
    acceptFence s i g k = setAnswer (publish s (demandedFor s i g k)) (some .accept) := rfl

theorem registered_fences (s : State) (i : InitiatorId) (g : ReqTag) (k j : FenceId) :
    (registered s i g k).fences[j] = if j = k then capturedFence s i g else s.fences[j] :=
  get_setFence (markTag s i g) k j _

theorem demandedFor_fences (s : State) (i : InitiatorId) (g : ReqTag) (k j : FenceId) :
    (demandedFor s i g k).fences[j] = if j = k then settleFence (capturedFence s i g) else s.fences[j] := by
  simp only [demandedFor, demandFence_frame]
  exact get_setFence (markTag s i g) k j _

/-- What the registration of a fence leaves. -/
theorem registered_frame (s : State) (i : InitiatorId) (g : ReqTag) (k : FenceId) :
    (registered s i g k).slots = s.slots ∧ (registered s i g k).arrival = s.arrival ∧
    (registered s i g k).queues = s.queues ∧ (registered s i g k).lines = s.lines ∧
    (registered s i g k).tags = s.tags ∧ (registered s i g k).entries = s.entries ∧
    (registered s i g k).responses = s.responses ∧ (registered s i g k).refusals = s.refusals ∧
    (registered s i g k).fenceOrder = s.fenceOrder ++ [k] := by
  simp [registered]

theorem demandFence_waiting (s : State) (es : List EntryId) (d : EntryId) :
    (demandFence s es).entries[d].waiting = s.entries[d].waiting :=
  foldl_eq (fun t : State => t.entries[d].waiting) (fun t e => addReason_waiting t e d .fence) es s

theorem demandFence_untouched (s : State) (es : List EntryId) : Untouched s (demandFence s es) :=
  .of_frame (demandFence_waiting s es)

theorem demandedFor_passing {s : State} {i : InitiatorId} {g : ReqTag} {k : FenceId}
    (ho : OpLaw (registered s i g k)) (hw : WaitLaw (registered s i g k)) :
    Passing (registered s i g k) (demandedFor s i g k) := by
  have hsettle : Passing (registered s i g k) (setFenceOrder
      (setFence (markTag s i g) k (settleFence (capturedFence s i g))) (s.fenceOrder ++ [k])) := by
    unfold registered at ho hw ⊢
    refine ⟨.of_fences fun j => ?_, .of_eq, ho, hw⟩
    simp only [setFenceOrder_fences, get_setFence]
    split
    · exact settleFence_moves rfl
    · exact .refl _
  exact hsettle.andThen (demandFence_untouched _ _)

theorem registered_storeLaw {s : State} (h : StoreLaw s) (i : InitiatorId) (g : ReqTag) {k : FenceId}
    (hk : s.fences[k].state = .free) : StoreLaw (registered s i g k) := by
  obtain ⟨hr, ho, hw⟩ := storeLaw_iff.1 h
  obtain ⟨hslots, harrival, -, -, htags, hentries, hresp, hrefusals, horder⟩ := registered_frame s i g k
  have hself : (registered s i g k).fences[k].state = .waiting := by rw [registered_fences, if_pos rfl]; rfl
  have hother {j : FenceId} (hj : j ≠ k) : (registered s i g k).fences[j] = s.fences[j] := by
    rw [registered_fences, if_neg hj]
  have hnew : k ∉ s.fenceOrder := fun hm => (hr.mem_order k).1 hm hk
  refine storeLaw_iff.2 ⟨?_, by rwa [OpLaw, hslots, htags], by rwa [WaitLaw, hslots, hentries]⟩
  constructor
  case arrival_nodup => rw [harrival]; exact hr.arrival_nodup
  case mem_arrival => rw [harrival, hslots]; exact hr.mem_arrival
  case undelivered => rw [hslots]; exact hr.undelivered
  case slot_ref => rw [hresp, hslots]; exact hr.slot_ref
  case nodup => rw [hresp]; exact hr.nodup
  case fence_ref =>
    intro j
    rw [hresp, hr.fence_ref]
    by_cases hj : j = k
    · subst hj
      simp only [hk, hself, reduceCtorEq]
    · rw [hother hj]
  case refusal_ref => rw [hresp, hrefusals]; exact hr.refusal_ref
  case done_status => rw [hslots]; exact hr.done_status
  case completed_status =>
    intro j hc
    have hj : j ≠ k := by
      rintro rfl
      rw [hself] at hc
      cases hc
    rw [hother hj] at hc ⊢
    exact hr.completed_status j hc
  case order_nodup =>
    rw [horder]
    exact List.nodup_append.2 ⟨hr.order_nodup, List.nodup_singleton k, fun x hx y hy => by
      rw [List.mem_singleton.1 hy]
      rintro rfl
      exact hnew hx⟩
  case mem_order =>
    intro j
    rw [horder, List.mem_append, List.mem_singleton, hr.mem_order]
    by_cases hj : j = k
    · subst hj
      simp only [hself, or_true, ne_eq, reduceCtorEq, not_false_eq_true]
    · rw [hother hj]
      simp only [hj, or_false]

theorem registered_queueLaw {s : State} (h : QueueLaw s) (i : InitiatorId) (g : ReqTag) (k : FenceId) :
    QueueLaw (registered s i g k) := by
  obtain ⟨hslots, harrival, hqueues, hlines, -⟩ := registered_frame s i g k
  refine h.kept ?_ (.of_eq hslots hqueues hlines)
  rw [filter_staysIn_of_state fun j hj => by rwa [hslots], harrival]

theorem registered_tagLaw {s : State} (h : TagLaw s) {i : InitiatorId} {g : ReqTag} {k : FenceId}
    (hk : s.fences[k].state = .free) (htag : s.tagTable[i][g] = false) : TagLaw (registered s i g k) := by
  obtain ⟨hslots, -⟩ := registered_frame s i g k
  have htable : (registered s i g k).tagTable = put s.tagTable i (put s.tagTable[i] g true) := rfl
  intro ini g'
  have hslot (j : SlotId) : SlotHolds (registered s i g k) ini g' j ↔ SlotHolds s ini g' j := by
    simp only [SlotHolds, hslots]
  have hother {j : FenceId} (hj : j ≠ k) : FenceHolds (registered s i g k) ini g' j ↔ FenceHolds s ini g' j := by
    simp only [FenceHolds, registered_fences, if_neg hj]
  have hself : FenceHolds (registered s i g k) ini g' k ↔ i = ini ∧ g = g' := by
    rw [FenceHolds, registered_fences, if_pos rfl]
    simp only [capturedFence, ne_eq, reduceCtorEq, not_false_eq_true, true_and]
  have hfree : ¬ FenceHolds s ini g' k := fun hh => hh.1 hk
  by_cases hg : ini = i ∧ g' = g
  · obtain ⟨rfl, rfl⟩ := hg
    obtain ⟨hss, hfs⟩ := (tagLaw_iff.1 h _ _).none_of_table htag
    refine TagHeldOnce.of_fence (k := k) ?_ (fun j => (hslot j).not.2 (hss j)) fun j => ?_
    · rw [htable, get_tagTable_put, if_pos ⟨rfl, rfl⟩]
    · by_cases hj : j = k
      · subst hj
        simp only [hself, and_self]
      · simp only [hother hj, hfs j, hj]
  · refine (tagLaw_iff.1 h ini g').congr ?_ hslot fun j => ?_
    · rw [htable, get_tagTable_put, if_neg hg]
    · by_cases hj : j = k
      · subst hj
        rw [hself]
        exact ⟨fun hh => absurd ⟨hh.1.symm, hh.2.symm⟩ hg, fun hh => absurd hh hfree⟩
      · exact hother hj

/-- An acceptance publishes as an event that begins with the record filled. -/
theorem publish_registered {s : State} (i : InitiatorId) (g : ReqTag) {k : FenceId} (hk : s.fences[k].state = .free) :
    publish s (demandedFor s i g k) = publish (registered s i g k) (demandedFor s i g k) := by
  obtain ⟨hslots, -⟩ := registered_frame s i g k
  refine publish_congr (fun j => by rw [hslots]) fun j _ => ?_
  rw [registered_fences]
  split
  · next hj => rw [hj, hk]; simp only [capturedFence, reduceCtorEq]
  · rfl

theorem setAnswer_untouched (s : State) (x : Option Answer) : Untouched s (setAnswer s x) := .of_frame fun _ => rfl

theorem acceptFence_storeLaw {s : State} (h : StoreLaw s) (i : InitiatorId) (g : ReqTag) {k : FenceId}
    (hk : s.fences[k].state = .free) : StoreLaw (acceptFence s i g k) := by
  have hreg := registered_storeLaw h i g hk
  obtain ⟨-, ho, hw⟩ := storeLaw_iff.1 hreg
  have hp := demandedFor_passing ho hw
  rw [acceptFence_eq, publish_registered i g hk]
  exact (hreg.publish hp.moves hp.ops hp.waits).untouched (setAnswer_untouched _ _)

theorem acceptFence_queueLaw {s : State} (hs : StoreLaw s) (h : QueueLaw s) (i : InitiatorId) (g : ReqTag) {k : FenceId}
    (hk : s.fences[k].state = .free) : QueueLaw (acceptFence s i g k) := by
  obtain ⟨-, ho, hw⟩ := storeLaw_iff.1 (registered_storeLaw hs i g hk)
  have hp := demandedFor_passing ho hw
  exact ((registered_queueLaw h i g k).moves hp.moves hp.kept : QueueLaw (demandedFor s i g k))

theorem acceptFence_tagLaw {s : State} (hs : StoreLaw s) (h : TagLaw s) {i : InitiatorId} {g : ReqTag} {k : FenceId}
    (hk : s.fences[k].state = .free) (htag : s.tagTable[i][g] = false) : TagLaw (acceptFence s i g k) := by
  obtain ⟨-, ho, hw⟩ := storeLaw_iff.1 (registered_storeLaw hs i g hk)
  have hp := demandedFor_passing ho hw
  exact ((registered_tagLaw h hk htag).moves hp.moves : TagLaw (demandedFor s i g k))

/-! ## A presentation keeps the laws -/

theorem deferUnclassed_untouched (s : State) : Untouched s (deferUnclassed s) := .of_frame fun _ => by simp

theorem deferClass_untouched (s : State) (k : ClassId) : Untouched s (deferClass s k) := .of_frame fun _ => by simp

theorem intake_storeLaw {s : State} (h : StoreLaw s) (r : Request) : StoreLaw (intake s r) := by
  rcases intake_cases s r with he | ⟨k, he⟩ | ⟨st, k, hk, he⟩ | ⟨a, w, i, hi, -, he⟩ | ⟨i, g, k, hk, -, he⟩ <;> rw [he]
  · exact h.untouched (deferUnclassed_untouched s)
  · exact h.untouched (deferClass_untouched s k)
  · exact refusedInto_storeLaw h r st hk
  · exact (accepted_storeLaw h a w hi).untouched (acceptAccess_untouched s a w i)
  · exact acceptFence_storeLaw h i g hk

theorem QueueLaw.untouched {s t : State} (h : QueueLaw s) (u : Untouched s t) : QueueLaw t := h.moves u.moves u.kept

theorem TagLaw.untouched {s t : State} (h : TagLaw s) (u : Untouched s t) : TagLaw t := h.moves u.moves

theorem intake_queueLaw {s : State} (hs : StoreLaw s) (h : QueueLaw s) (r : Request) : QueueLaw (intake s r) := by
  rcases intake_cases s r with he | ⟨k, he⟩ | ⟨st, k, -, he⟩ | ⟨a, w, i, hi, -, he⟩ | ⟨i, g, k, hk, -, he⟩ <;> rw [he]
  · exact h.untouched (deferUnclassed_untouched s)
  · exact h.untouched (deferClass_untouched s k)
  · exact refusedInto_queueLaw h r st k
  · exact (accepted_queueLaw (storeLaw_iff.1 hs).1 h a w hi).untouched (acceptAccess_untouched s a w i)
  · exact acceptFence_queueLaw hs h i g hk

theorem intake_tagLaw {s : State} (hs : StoreLaw s) (h : TagLaw s) (r : Request) : TagLaw (intake s r) := by
  rcases intake_cases s r with he | ⟨k, he⟩ | ⟨st, k, -, he⟩ | ⟨a, w, i, hi, htag, he⟩ | ⟨i, g, k, hk, htag, he⟩ <;>
    rw [he]
  · exact h.untouched (deferUnclassed_untouched s)
  · exact h.untouched (deferClass_untouched s k)
  · exact refusedInto_tagLaw h r st k
  · exact (accepted_tagLaw h a w hi htag).untouched (acceptAccess_untouched s a w i)
  · exact acceptFence_tagLaw hs h hk htag

/-! ## A delivery (R16, R17): the front reference is consumed, then what has been delivered leaves -/

/-- The front reference taken and what it names marked delivered or freed, before anything leaves on that account. -/
def consumed (s : State) (rest : List Ref) : Ref → State
  | .slot i =>
      setSlot (clearTag (setTaken (setResponses s rest) (responseOf s (.slot i))) s.slots[i].initiator s.slots[i].tag) i
        { s.slots[i] with delivered := true }
  | .fence k =>
      setFenceOrder
        (setFence (clearTag (setTaken (setResponses s rest) (responseOf s (.fence k))) s.fences[k].initiator
          s.fences[k].tag) k FenceRecord.free)
        (without k s.fenceOrder)
  | .refusal k => setRefusals (setTaken (setResponses s rest) (responseOf s (.refusal k))) (put s.refusals k none)

/-- A delivered slot with no memory tag leaves, and a delivered fence leaves the wait sets. -/
def departed (s : State) (rest : List Ref) : Ref → State
  | .slot i =>
      if s.slots[i].memTag.isNone then freeSlot (consumed s rest (.slot i)) i else consumed s rest (.slot i)
  | .fence k => departFence (consumed s rest (.fence k)) k
  | .refusal k => consumed s rest (.refusal k)

theorem deliver_eq {s : State} {ref : Ref} {rest : List Ref} (h : s.responses = ref :: rest) :
    deliver s = conclude s (departed s rest ref) := by
  simp only [deliver, h]
  cases ref <;> rfl

theorem consumed_slot_slots (s : State) (rest : List Ref) (i j : SlotId) :
    (consumed s rest (.slot i)).slots[j] = if j = i then { s.slots[i] with delivered := true } else s.slots[j] :=
  get_put s.slots i j _

theorem consumed_fence_fences (s : State) (rest : List Ref) (k j : FenceId) :
    (consumed s rest (.fence k)).fences[j] = if j = k then FenceRecord.free else s.fences[j] :=
  get_put s.fences k j _

/-- What the consumption of any reference leaves. -/
theorem consumed_frame (s : State) (rest : List Ref) (ref : Ref) :
    (consumed s rest ref).arrival = s.arrival ∧ (consumed s rest ref).queues = s.queues ∧
    (consumed s rest ref).lines = s.lines ∧ (consumed s rest ref).tags = s.tags ∧
    (consumed s rest ref).entries = s.entries ∧ (consumed s rest ref).responses = rest := by
  cases ref <;> simp [consumed]

theorem consumed_slot_frame (s : State) (rest : List Ref) (i : SlotId) :
    (consumed s rest (.slot i)).fences = s.fences ∧ (consumed s rest (.slot i)).fenceOrder = s.fenceOrder ∧
    (consumed s rest (.slot i)).refusals = s.refusals := by
  simp [consumed]

theorem consumed_fence_frame (s : State) (rest : List Ref) (k : FenceId) :
    (consumed s rest (.fence k)).slots = s.slots ∧ (consumed s rest (.fence k)).fenceOrder = without k s.fenceOrder ∧
    (consumed s rest (.fence k)).refusals = s.refusals := by
  simp [consumed]

theorem consumed_refusal_frame (s : State) (rest : List Ref) (k : RefusalId) :
    (consumed s rest (.refusal k)).slots = s.slots ∧ (consumed s rest (.refusal k)).fences = s.fences ∧
    (consumed s rest (.refusal k)).fenceOrder = s.fenceOrder ∧
    (consumed s rest (.refusal k)).refusals = put s.refusals k none ∧
    (consumed s rest (.refusal k)).tagTable = s.tagTable := by
  simp [consumed]

/-- A slot keeps its standing and its memory tag through the consumption of any reference. -/
theorem consumed_slots (s : State) (rest : List Ref) (ref : Ref) (j : SlotId) :
    (consumed s rest ref).slots[j] =
      { s.slots[j] with delivered := (consumed s rest ref).slots[j].delivered } := by
  cases ref with
  | slot i =>
    rw [consumed_slot_slots]
    split
    · next h => rw [h]
    · rfl
  | fence k => rw [(consumed_fence_frame s rest k).1]
  | refusal k => rw [(consumed_refusal_frame s rest k).1]

theorem consumed_refLaw_slot {s : State} (h : RefLaw s) {rest : List Ref} {i : SlotId}
    (hs : s.responses = .slot i :: rest) : RefLaw (consumed s rest (.slot i)) := by
  obtain ⟨harrival, -, -, -, -, hresp⟩ := consumed_frame s rest (.slot i)
  obtain ⟨hfences, horder, hrefusals⟩ := consumed_slot_frame s rest i
  obtain ⟨hnot, hnd⟩ := List.nodup_cons.1 (hs ▸ h.nodup)
  have hdone := ((h.slot_ref i).1 (by rw [hs]; exact List.mem_cons_self)).1
  have hself : (consumed s rest (.slot i)).slots[i] = { s.slots[i] with delivered := true } := by
    rw [consumed_slot_slots, if_pos rfl]
  have hother {j : SlotId} (hj : j ≠ i) : (consumed s rest (.slot i)).slots[j] = s.slots[j] := by
    rw [consumed_slot_slots, if_neg hj]
  constructor
  case arrival_nodup => rw [harrival]; exact h.arrival_nodup
  case mem_arrival =>
    intro j
    rw [harrival, h.mem_arrival, consumed_slots]
  case undelivered =>
    intro j hf hd
    by_cases hj : j = i
    · subst hj
      rw [hself] at hd
      exact absurd hdone hd
    · rw [hother hj] at hf hd ⊢
      exact h.undelivered j hf hd
  case slot_ref =>
    intro j
    rw [hresp]
    by_cases hj : j = i
    · subst hj
      simp only [hnot, hself, Bool.true_eq_false, and_false]
    · rw [hother hj, ← h.slot_ref, hs, List.mem_cons]
      simp only [Ref.slot.injEq, hj, false_or]
  case nodup => rw [hresp]; exact hnd
  case fence_ref =>
    intro k
    rw [hresp, hfences, ← h.fence_ref, hs, List.mem_cons]
    simp only [reduceCtorEq, false_or]
  case refusal_ref =>
    intro k
    rw [hresp, hrefusals, ← h.refusal_ref, hs, List.mem_cons]
    simp only [reduceCtorEq, false_or]
  case done_status =>
    intro j hd
    rw [consumed_slots] at hd ⊢
    exact h.done_status j hd
  case completed_status => rw [hfences]; exact h.completed_status
  case order_nodup => rw [horder]; exact h.order_nodup
  case mem_order => rw [horder, hfences]; exact h.mem_order

theorem consumed_refLaw_fence {s : State} (h : RefLaw s) {rest : List Ref} {k : FenceId}
    (hs : s.responses = .fence k :: rest) : RefLaw (consumed s rest (.fence k)) := by
  obtain ⟨harrival, -, -, -, -, hresp⟩ := consumed_frame s rest (.fence k)
  obtain ⟨hslots, horder, hrefusals⟩ := consumed_fence_frame s rest k
  obtain ⟨hnot, hnd⟩ := List.nodup_cons.1 (hs ▸ h.nodup)
  have hself : (consumed s rest (.fence k)).fences[k] = FenceRecord.free := by
    rw [consumed_fence_fences, if_pos rfl]
  have hother {j : FenceId} (hj : j ≠ k) : (consumed s rest (.fence k)).fences[j] = s.fences[j] := by
    rw [consumed_fence_fences, if_neg hj]
  constructor
  case arrival_nodup => rw [harrival]; exact h.arrival_nodup
  case mem_arrival => rw [harrival, hslots]; exact h.mem_arrival
  case undelivered => rw [hslots]; exact h.undelivered
  case slot_ref =>
    intro i
    rw [hresp, hslots, ← h.slot_ref, hs, List.mem_cons]
    simp only [reduceCtorEq, false_or]
  case nodup => rw [hresp]; exact hnd
  case fence_ref =>
    intro j
    rw [hresp]
    by_cases hj : j = k
    · subst hj
      simp only [hnot, hself, FenceRecord.free, reduceCtorEq]
    · rw [hother hj, ← h.fence_ref, hs, List.mem_cons]
      simp only [Ref.fence.injEq, hj, false_or]
  case refusal_ref =>
    intro j
    rw [hresp, hrefusals, ← h.refusal_ref, hs, List.mem_cons]
    simp only [reduceCtorEq, false_or]
  case done_status => rw [hslots]; exact h.done_status
  case completed_status =>
    intro j hc
    have hj : j ≠ k := by
      rintro rfl
      rw [hself] at hc
      cases hc
    rw [hother hj] at hc ⊢
    exact h.completed_status j hc
  case order_nodup => rw [horder]; exact h.order_nodup.filter _
  case mem_order =>
    intro j
    rw [horder, mem_without, h.mem_order]
    by_cases hj : j = k
    · subst hj
      simp only [hself, FenceRecord.free, ne_eq, not_true_eq_false, and_false]
    · rw [hother hj]
      simp only [hj, ne_eq, not_false_eq_true, and_true]

theorem consumed_refLaw_refusal {s : State} (h : RefLaw s) {rest : List Ref} {k : RefusalId}
    (hs : s.responses = .refusal k :: rest) : RefLaw (consumed s rest (.refusal k)) := by
  obtain ⟨harrival, -, -, -, -, hresp⟩ := consumed_frame s rest (.refusal k)
  obtain ⟨hslots, hfences, horder, hrefusals, -⟩ := consumed_refusal_frame s rest k
  obtain ⟨hnot, hnd⟩ := List.nodup_cons.1 (hs ▸ h.nodup)
  constructor
  case arrival_nodup => rw [harrival]; exact h.arrival_nodup
  case mem_arrival => rw [harrival, hslots]; exact h.mem_arrival
  case undelivered => rw [hslots]; exact h.undelivered
  case slot_ref =>
    intro i
    rw [hresp, hslots, ← h.slot_ref, hs, List.mem_cons]
    simp only [reduceCtorEq, false_or]
  case nodup => rw [hresp]; exact hnd
  case fence_ref =>
    intro j
    rw [hresp, hfences, ← h.fence_ref, hs, List.mem_cons]
    simp only [reduceCtorEq, false_or]
  case refusal_ref =>
    intro j
    rw [hresp, hrefusals, get_put]
    split
    · next hj =>
      subst hj
      simp only [hnot, Option.isSome_none, Bool.false_eq_true]
    · next hj =>
      rw [← h.refusal_ref, hs, List.mem_cons]
      simp only [Ref.refusal.injEq, hj, false_or]
  case done_status => rw [hslots]; exact h.done_status
  case completed_status => rw [hfences]; exact h.completed_status
  case order_nodup => rw [horder]; exact h.order_nodup
  case mem_order => rw [horder, hfences]; exact h.mem_order

theorem consumed_storeLaw {s : State} (h : StoreLaw s) {rest : List Ref} {ref : Ref} (hs : s.responses = ref :: rest) :
    StoreLaw (consumed s rest ref) := by
  obtain ⟨hr, ho, hw⟩ := storeLaw_iff.1 h
  obtain ⟨-, -, -, htags, hentries, -⟩ := consumed_frame s rest ref
  refine storeLaw_iff.2 ⟨?_, fun τ op i hop hsrc => ?_, fun e i hi => ?_⟩
  · cases ref with
    | slot i => exact consumed_refLaw_slot hr hs
    | fence k => exact consumed_refLaw_fence hr hs
    | refusal k => exact consumed_refLaw_refusal hr hs
  · rw [htags] at hop
    rw [consumed_slots]
    exact ho τ op i hop hsrc
  · rw [hentries] at hi ⊢
    rw [consumed_slots]
    exact hw e i hi

theorem freeSlot_kept {s : State} {i : SlotId} (h : s.slots[i].state ≠ .queued) : QueueKept s (freeSlot s i) :=
  .of_slots fun j => by
    rw [(freeSlot_spec s i).1, get_put]
    split
    · next hj => rw [hj]; exact ⟨by simp only [h, reduceCtorEq], rfl, rfl, rfl, rfl⟩
    · exact .refl _

/-- A slot that leaves with no memory tag has no op, and waits on no entry. -/
theorem freeSlot_passing {s : State} (ho : OpLaw s) (hw : WaitLaw s) {i : SlotId} (hdone : s.slots[i].state = .done)
    (hdel : s.slots[i].delivered = true) (hmem : s.slots[i].memTag = none) : Passing s (freeSlot s i) := by
  have hother {j : SlotId} (hj : j ≠ i) : (freeSlot s i).slots[j] = s.slots[j] := by
    rw [(freeSlot_spec s i).1, get_put_ne _ _ hj]
  refine ⟨freeSlot_moves (by rw [hdone]; simp only [ne_eq, reduceCtorEq, not_false_eq_true]) hdel,
    freeSlot_kept (by rw [hdone]; simp only [ne_eq, reduceCtorEq, not_false_eq_true]), fun τ op j hop hsrc => ?_,
    fun e j hj => ?_⟩
  · simp only [freeSlot_frame] at hop
    obtain ⟨hm, hst⟩ := ho τ op j hop hsrc
    have hj : j ≠ i := by
      rintro rfl
      rw [hmem] at hm
      cases hm
    rw [hother hj]
    exact ⟨hm, hst⟩
  · simp only [freeSlot_frame] at hj ⊢
    obtain ⟨hst, huniq⟩ := hw e j hj
    have hji : j ≠ i := by
      rintro rfl
      rw [hdone] at hst
      cases hst
    rw [hother hji]
    exact ⟨hst, huniq⟩

theorem departed_passing {s : State} (h : StoreLaw s) {rest : List Ref} {ref : Ref} (hs : s.responses = ref :: rest) :
    Passing (consumed s rest ref) (departed s rest ref) := by
  obtain ⟨-, ho, hw⟩ := storeLaw_iff.1 (consumed_storeLaw h hs)
  cases ref with
  | slot i =>
    have hself : (consumed s rest (.slot i)).slots[i] = { s.slots[i] with delivered := true } := by
      rw [consumed_slot_slots, if_pos rfl]
    have hdone := (((storeLaw_iff.1 h).1.slot_ref i).1 (by rw [hs]; exact List.mem_cons_self)).1
    simp only [departed]
    split
    · next hm =>
      exact freeSlot_passing ho hw (by rw [hself]; exact hdone) (by rw [hself])
        (by rw [hself]; exact Option.isNone_iff_eq_none.1 hm)
    · exact .refl ho hw
  | fence k => exact mapFences_passing ho hw (dropFence_moves k)
  | refusal k => exact .refl ho hw

/-- A delivery publishes as an event that begins with the reference consumed: a fence that is delivered is FREE. -/
theorem publish_consumed (s : State) (rest : List Ref) (ref : Ref) :
    publish s (departed s rest ref) = publish (consumed s rest ref) (departed s rest ref) := by
  refine publish_congr (fun i => by rw [consumed_slots]) fun k hc => ?_
  cases ref with
  | slot i => rw [(consumed_slot_frame s rest i).1]
  | refusal j => rw [(consumed_refusal_frame s rest j).2.1]
  | fence j =>
    have hne : k ≠ j := by
      rintro rfl
      have hf : (departed s rest (.fence k)).fences[k] = dropFence k (consumed s rest (.fence k)).fences[k] :=
        get_mapFences _ _ k k.isLt
      rw [hf, consumed_fence_fences, if_pos rfl] at hc
      cases hc
    rw [consumed_fence_fences, if_neg hne]

theorem deliver_storeLaw {s : State} (h : StoreLaw s) : StoreLaw (deliver s) := by
  cases hs : s.responses with
  | nil => simpa only [deliver, hs] using h
  | cons ref rest =>
    have hp := departed_passing h hs
    rw [deliver_eq hs, conclude, publish_consumed]
    exact ((consumed_storeLaw h hs).publish hp.moves hp.ops hp.waits).untouched (judgeEmpty_untouched _)

theorem consumed_queueLaw {s : State} (h : QueueLaw s) (rest : List Ref) (ref : Ref) :
    QueueLaw (consumed s rest ref) := by
  obtain ⟨harrival, hqueues, hlines, -⟩ := consumed_frame s rest ref
  refine h.kept ?_ (.of_slots (fun j => ?_) hqueues hlines)
  · rw [filter_staysIn_of_state fun j hj => by rwa [consumed_slots], harrival]
  · rw [consumed_slots]
    exact ⟨.rfl, rfl, rfl, rfl, rfl⟩

theorem deliver_queueLaw {s : State} (hs : StoreLaw s) (h : QueueLaw s) : QueueLaw (deliver s) := by
  cases hr : s.responses with
  | nil => simpa only [deliver, hr] using h
  | cons ref rest =>
    have hp := departed_passing hs hr
    rw [deliver_eq hr]
    exact ((consumed_queueLaw h rest ref).moves hp.moves hp.kept).conclude

theorem consumed_tagLaw {s : State} (hs : StoreLaw s) (h : TagLaw s) {rest : List Ref} {ref : Ref}
    (hr : s.responses = ref :: rest) : TagLaw (consumed s rest ref) := by
  obtain ⟨hrl, -, -⟩ := storeLaw_iff.1 hs
  intro ini g
  obtain ⟨hiff, hslots, hfences, hboth⟩ := tagLaw_iff.1 h ini g
  cases ref with
  | slot i =>
    have htable : (consumed s rest (.slot i)).tagTable =
      put s.tagTable s.slots[i].initiator (put s.tagTable[s.slots[i].initiator] s.slots[i].tag false) := rfl
    obtain ⟨hdone, hdel⟩ := (hrl.slot_ref i).1 (by rw [hr]; exact List.mem_cons_self)
    have hfence (k : FenceId) : FenceHolds (consumed s rest (.slot i)) ini g k ↔ FenceHolds s ini g k := by
      simp only [FenceHolds, (consumed_slot_frame s rest i).1]
    have hself : ¬ SlotHolds (consumed s rest (.slot i)) ini g i := by
      rw [SlotHolds, consumed_slot_slots, if_pos rfl]
      simp only [Bool.true_eq_false, false_and, and_false, not_false_eq_true]
    have hother {j : SlotId} (hj : j ≠ i) : SlotHolds (consumed s rest (.slot i)) ini g j ↔ SlotHolds s ini g j := by
      simp only [SlotHolds, consumed_slot_slots, if_neg hj]
    have hi : SlotHolds s ini g i ↔ s.slots[i].initiator = ini ∧ s.slots[i].tag = g := by
      simp only [SlotHolds, hdone, hdel, ne_eq, reduceCtorEq, not_false_eq_true, true_and]
    by_cases hg : ini = s.slots[i].initiator ∧ g = s.slots[i].tag
    · have hold := hi.2 ⟨hg.1.symm, hg.2.symm⟩
      refine TagHeldOnce.of_none (by rw [htable, get_tagTable_put, if_pos hg]) (fun j hj => ?_)
        fun k hk => hboth i k ⟨hold, (hfence k).1 hk⟩
      by_cases hji : j = i
      · exact hself (hji ▸ hj)
      · exact hji (hslots j i ((hother hji).1 hj) hold)
    · refine (tagLaw_iff.1 h ini g).congr (by rw [htable, get_tagTable_put, if_neg hg]) (fun j => ?_) hfence
      by_cases hji : j = i
      · subst hji
        exact iff_of_false hself fun hh => hg ⟨(hi.1 hh).1.symm, (hi.1 hh).2.symm⟩
      · exact hother hji
  | fence k =>
    have htable : (consumed s rest (.fence k)).tagTable =
      put s.tagTable s.fences[k].initiator (put s.tagTable[s.fences[k].initiator] s.fences[k].tag false) := rfl
    have hcomp := (hrl.fence_ref k).1 (by rw [hr]; exact List.mem_cons_self)
    have hslot (j : SlotId) : SlotHolds (consumed s rest (.fence k)) ini g j ↔ SlotHolds s ini g j := by
      simp only [SlotHolds, (consumed_fence_frame s rest k).1]
    have hself : ¬ FenceHolds (consumed s rest (.fence k)) ini g k := by
      rw [FenceHolds, consumed_fence_fences, if_pos rfl]
      exact fun hh => hh.1 rfl
    have hother {j : FenceId} (hj : j ≠ k) :
        FenceHolds (consumed s rest (.fence k)) ini g j ↔ FenceHolds s ini g j := by
      simp only [FenceHolds, consumed_fence_fences, if_neg hj]
    have hk : FenceHolds s ini g k ↔ s.fences[k].initiator = ini ∧ s.fences[k].tag = g := by
      simp only [FenceHolds, hcomp, ne_eq, reduceCtorEq, not_false_eq_true, true_and]
    by_cases hg : ini = s.fences[k].initiator ∧ g = s.fences[k].tag
    · have hold := hk.2 ⟨hg.1.symm, hg.2.symm⟩
      refine TagHeldOnce.of_none (by rw [htable, get_tagTable_put, if_pos hg])
        (fun j hj => hboth j k ⟨(hslot j).1 hj, hold⟩) fun j hj => ?_
      by_cases hjk : j = k
      · exact hself (hjk ▸ hj)
      · exact hjk (hfences j k ((hother hjk).1 hj) hold)
    · refine (tagLaw_iff.1 h ini g).congr (by rw [htable, get_tagTable_put, if_neg hg]) hslot fun j => ?_
      by_cases hjk : j = k
      · subst hjk
        exact iff_of_false hself fun hh => hg ⟨(hk.1 hh).1.symm, (hk.1 hh).2.symm⟩
      · exact hother hjk
  | refusal k =>
    obtain ⟨hsl, hfl, -, -, htable⟩ := consumed_refusal_frame s rest k
    exact (tagLaw_iff.1 h ini g).congr (by rw [htable]) (fun j => by simp only [SlotHolds, hsl])
      fun j => by simp only [FenceHolds, hfl]

theorem deliver_tagLaw {s : State} (hs : StoreLaw s) (h : TagLaw s) : TagLaw (deliver s) := by
  cases hr : s.responses with
  | nil => simpa only [deliver, hr] using h
  | cons ref rest =>
    rw [deliver_eq hr]
    exact ((consumed_tagLaw hs h hr).moves (departed_passing hs hr).moves).conclude

/-! ## The commands that leave what the laws read -/

theorem issueForEntry_entry (s : State) (e : EntryId) : ∃ m, ∀ d : EntryId,
    (issueForEntry s e).entries[d] = if d = e then { s.entries[e] with memTag := m } else s.entries[d] := by
  unfold issueForEntry
  split
  · next t _ => exact ⟨some t, fun d => get_setEntry _ e d _⟩
  · refine ⟨s.entries[e].memTag, fun d => ?_⟩
    split
    · next h => rw [h]
    · rfl

/-- A drain's op is an entry's: it leaves the ops of slots as they stand. -/
theorem grantDrain_untouched (s : State) (e : EntryId) : Untouched s (grantDrain s e) where
  slots := by simp
  arrival := by simp
  queues := by simp
  lines := by simp
  fences := by simp
  fenceOrder := by simp
  responses := by simp
  refusals := by simp
  tagTable := by simp
  ops τ op i hop hsrc := by
    have htags : (grantDrain s e).tags = (issueForEntry s e).tags := by simp [grantDrain]
    rw [htags] at hop
    cases hf : firstFreeTag s with
    | none => simpa only [issueForEntry, hf] using hop
    | some t =>
      rw [issueForEntry_spec hf] at hop
      simp only [get_put] at hop
      split at hop
      · cases hop
        cases hsrc
      · exact hop
  waiting d := by
    obtain ⟨m, hm⟩ := issueForEntry_entry s e
    simp only [grantDrain, countDrain_frame, get_setEntry, hm]
    split
    · next h => rw [h]; simp only [if_true]
    · rfl

theorem nextDrainGrant_untouched (s : State) : Untouched s (nextDrainGrant s) := by
  have hsame : Untouched s s := .of_frame fun _ => rfl
  unfold nextDrainGrant
  split
  · exact grantDrain_untouched s _
  · exact hsame
  · exact hsame

theorem demandAll_untouched (s : State) : Untouched s (demandAll s) :=
  forEach_keeps (P := Untouched s) (fun t e ht => ht.trans (addReason_untouched t e .drainCmd)) (.of_frame fun _ => rfl)

theorem drainPart_untouched (s : State) : Untouched s (drainPart s) := by
  have hpart : Untouched s (setPart s .draining) := .of_frame fun _ => rfl
  unfold drainPart
  split
  · exact ((hpart.trans (demandAll_untouched _)).trans (judgeEmpty_untouched _)).trans (answerMgmt_untouched _ _ _)
  · exact answerMgmt_untouched _ _ _
  · exact answerMgmt_untouched _ _ _
  · exact answerMgmt_untouched _ _ _

theorem judgeAged_untouched (s : State) (e : EntryId) : Untouched s (judgeAged s e) :=
  .of_frame fun d => judgeAged_waiting s e d

/-- A discarded or late completion gives up a tag at most. -/
theorem lateCompletion_untouched (s : State) (τ : TagId) : Untouched s (lateCompletion s τ) where
  slots := by simp
  arrival := by simp
  queues := by simp
  lines := by simp
  fences := by simp
  fenceOrder := by simp
  responses := by simp
  refusals := by simp
  tagTable := by simp
  ops σ op i hop _ := by
    have htags : (lateCompletion s τ).tags = put s.tags τ .free := by simp [lateCompletion, setTag]
    rw [htags, get_put] at hop
    split at hop
    · cases hop
    · exact hop
  waiting d := by simp

theorem strayCompletion_untouched (s : State) : Untouched s (strayCompletion s) := .of_frame fun _ => by simp

theorem complete_cases {s : State} (ho : OpLaw s) (hw : WaitLaw s) (tag : Nat) (o : OpOutcome) :
    Untouched s (complete s tag o) ∨ ∃ t, Passing s t ∧ complete s tag o = conclude s t := by
  unfold complete
  split
  · unfold completeTag
    split
    · next op hop => exact .inr ⟨_, resolve_passing ho hw hop o (x := .free) nofun, rfl⟩
    · exact .inl (lateCompletion_untouched s _)
    · exact .inl (strayCompletion_untouched s)
  · exact .inl (strayCompletion_untouched s)

theorem commitPart_cases {s : State} (ho : OpLaw s) (hw : WaitLaw s) :
    Untouched s (commitPart s) ∨ ∃ t, Passing s t ∧ Untouched (conclude s t) (commitPart s) := by
  have hvalidate : Untouched s (validateAndCommit s) ∨
      ∃ t, Passing s t ∧ Untouched (conclude s t) (validateAndCommit s) := by
    unfold validateAndCommit
    split
    · exact .inl (answerMgmt_untouched _ _ _)
    · exact .inr ⟨_, commit_passing ho hw, answerMgmt_untouched _ _ _⟩
  unfold commitPart
  split
  · exact .inl (answerMgmt_untouched _ _ _)
  · exact hvalidate
  · exact hvalidate
  · exact hvalidate

/-- What a command can do to what the laws of the store, the queues and the tags read: leave it, or be an event that
moves slots and fences and then publishes; five commands are taken on their own. -/
theorem effect_cases {s : State} (ho : OpLaw s) (hw : WaitLaw s) (c : Instr) :
    Untouched s (effect c s) ∨ (∃ t, Passing s t ∧ Untouched (conclude s t) (effect c s)) ∨
    (∃ r, c = .presentation r) ∨ c = .delivery ∨ c = .grant ∨ c = .restart ∨ c = .hardReset := by
  have hsame (t : State) : Untouched t t := .of_frame fun _ => rfl
  cases c with
  | presentation r => exact .inr (.inr (.inl ⟨r, rfl⟩))
  | delivery | grant | restart | hardReset => simp
  | drainGrant => exact .inl (nextDrainGrant_untouched s)
  | completion tag st line =>
    rcases complete_cases ho hw tag (completionOutcome st line) with h | ⟨t, hp, he⟩
    · exact .inl h
    · exact .inr (.inl ⟨t, hp, by rw [effect, he]; exact hsame _⟩)
  | timeBaseStep => exact .inr (.inl ⟨_, timeStep_passing ho hw, hsame _⟩)
  | responseTimeout τ => exact .inr (.inl ⟨_, judgeTimeout_passing ho hw τ, hsame _⟩)
  | commit =>
    rcases commitPart_cases ho hw with h | h
    · exact .inl h
    · exact .inr (.inl h)
  | aged e => exact .inl (judgeAged_untouched s e)
  | drain => exact .inl (drainPart_untouched s)
  | hold _ | refillExpiry | urgentEpisode _ | resetDeassert | shortFrame | unknownCommand _ | readItem _ | writeItem _ _
  | discardStaged | resume | takeFault | ackAlert _ | clearCounters | status _ =>
    left
    unfold effect
    exact .of_frame fun _ => by simp

/-! ## Hard reset meets the laws -/

/-- The state that HARD_RESET leaves (R172). -/
def afterReset (s : State) : State :=
  { State.reset with resetLine := true, holdLine := s.holdLine, pending := s.pending }

theorem afterReset_slots (s : State) (i : SlotId) : (afterReset s).slots[i] = Slot.reset := by
  simp [afterReset, State.reset]

theorem afterReset_fences (s : State) (k : FenceId) : (afterReset s).fences[k] = FenceRecord.free := by
  simp [afterReset, State.reset]

theorem afterReset_storeLaw (s : State) : StoreLaw (afterReset s) := by
  have hrefusals (k : RefusalId) : (afterReset s).refusals[k] = none := by simp [afterReset, State.reset]
  have htags (τ : TagId) : (afterReset s).tags[τ] = .free := by simp [afterReset, State.reset]
  have hentries (e : EntryId) : (afterReset s).entries[e] = MergeEntry.free := by simp [afterReset, State.reset]
  have hlists : (afterReset s).arrival = [] ∧ (afterReset s).responses = [] ∧ (afterReset s).fenceOrder = [] :=
    ⟨rfl, rfl, rfl⟩
  obtain ⟨ha, hr, ho⟩ := hlists
  refine storeLaw_iff.2 ⟨?_, fun τ op i hop _ => ?_, fun e i hi => ?_⟩
  · constructor <;> simp only [ha, hr, ho, afterReset_slots, afterReset_fences, hrefusals] <;>
      simp [Slot.reset, FenceRecord.free]
  · rw [htags] at hop
    cases hop
  · rw [hentries] at hi
    simp [MergeEntry.free] at hi

theorem afterReset_queueLaw (s : State) : QueueLaw (afterReset s) := by
  have hl (a : LineAddr) : lineList (afterReset s) a = [] := rfl
  refine ⟨fun k => ?_, List.nodup_nil, fun a => ?_, fun a older x younger h => ?_, fun i _ => ?_⟩
  · simp [afterReset, State.reset]
  · rw [hl]; simp [afterReset, State.reset]
  · rw [hl] at h; simp at h
  · rw [afterReset_slots]; rfl

theorem afterReset_tagLaw (s : State) : TagLaw (afterReset s) := by
  intro i g
  refine TagHeldOnce.of_none (by simp [afterReset, State.reset]) (fun j hj => ?_) fun k hk => ?_
  · exact hj.1 (by rw [afterReset_slots]; rfl)
  · exact hk.1 (by rw [afterReset_fences]; rfl)

/-! ## The laws of the store, the queues and the tags are kept -/

theorem effect_storeLaw (c : Instr) {s : State} (h : StoreLaw s) : StoreLaw (effect c s) := by
  obtain ⟨-, ho, hw⟩ := storeLaw_iff.1 h
  rcases effect_cases ho hw c with u | ⟨t, hp, u⟩ | ⟨r, rfl⟩ | rfl | rfl | rfl | rfl
  · exact h.untouched u
  · exact (h.conclude hp.moves hp.ops hp.waits).untouched u
  · exact intake_storeLaw h r
  · exact deliver_storeLaw h
  · exact grant_storeLaw h
  · exact restart_storeLaw h
  · exact afterReset_storeLaw s

theorem effect_queueLaw (c : Instr) {s : State} (hs : StoreLaw s) (h : QueueLaw s) : QueueLaw (effect c s) := by
  obtain ⟨-, ho, hw⟩ := storeLaw_iff.1 hs
  rcases effect_cases ho hw c with u | ⟨t, hp, u⟩ | ⟨r, rfl⟩ | rfl | rfl | rfl | rfl
  · exact h.untouched u
  · exact (h.moves hp.moves hp.kept).conclude.untouched u
  · exact intake_queueLaw hs h r
  · exact deliver_queueLaw hs h
  · exact grant_queueLaw hs h
  · exact restart_queueLaw h
  · exact afterReset_queueLaw s

theorem effect_tagLaw (c : Instr) {s : State} (hs : StoreLaw s) (h : TagLaw s) : TagLaw (effect c s) := by
  obtain ⟨-, ho, hw⟩ := storeLaw_iff.1 hs
  rcases effect_cases ho hw c with u | ⟨t, hp, u⟩ | ⟨r, rfl⟩ | rfl | rfl | rfl | rfl
  · exact h.untouched u
  · exact (h.moves hp.moves).conclude.untouched u
  · exact intake_tagLaw hs h r
  · exact deliver_tagLaw hs h
  · exact grant_tagLaw hs h
  · exact restart_tagLaw h
  · exact afterReset_tagLaw s

theorem setPending_untouched (s : State) (rest : List Instr) : Untouched s (setPending s rest) := .of_frame fun _ => rfl

/-- Settles O57: a step is one effect, and each effect keeps the law. -/
theorem stepKeepsStoreLaw : Obligations.StepKeepsStoreLaw := fun _ _ =>
  step_keeps (fun s rest h => h.untouched (setPending_untouched s rest)) fun c _ => effect_storeLaw c

/-- Settles O58: the queues' law and the tags' law are each kept together with the store's. -/
theorem stepKeepsQueueAndTagLaws : Obligations.StepKeepsQueueAndTagLaws := by
  constructor
  · intro s t hs hq hstep
    refine (step_keeps (P := fun u => StoreLaw u ∧ QueueLaw u) (fun u rest h => ?_) (fun c u h => ?_) ⟨hs, hq⟩ hstep).2
    · exact ⟨h.1.untouched (setPending_untouched u rest), h.2.untouched (setPending_untouched u rest)⟩
    · exact ⟨effect_storeLaw c h.1, effect_queueLaw c h.1 h.2⟩
  · intro s t hs ht hstep
    refine (step_keeps (P := fun u => StoreLaw u ∧ TagLaw u) (fun u rest h => ?_) (fun c u h => ?_) ⟨hs, ht⟩ hstep).2
    · exact ⟨h.1.untouched (setPending_untouched u rest), h.2.untouched (setPending_untouched u rest)⟩
    · exact ⟨effect_storeLaw c h.1, effect_tagLaw c h.1 h.2⟩

/-! ## The law of quiescence (R165), as two: every HELD refusal record is referenced, and a QUIESCENT part meets the
empty conditions -/

/-- Every HELD refusal record is referenced (R13). -/
def Referenced (s : State) : Prop := ∀ k : RefusalId, s.refusals[k].isSome = true → Ref.refusal k ∈ s.responses

theorem quiescentLaw_iff {s : State} : QuiescentLaw s ↔ Referenced s ∧ (s.part = .quiescent → NothingHeld s) := by
  refine and_congr_right fun href => forall_congr' fun _ => ⟨?_, ?_⟩
  · rintro ⟨hslots, hfences, -, hentries, hresp, htags⟩
    refine ⟨hslots, hfences, hentries, fun τ op hop => ?_, hresp⟩
    rcases htags τ with hτ | hτ <;> rw [hτ] at hop <;> cases hop
  · rintro ⟨hslots, hfences, hentries, htags, hresp⟩
    refine ⟨hslots, hfences, fun k => ?_, hentries, hresp, fun τ => ?_⟩
    · by_contra hk
      have href := href k (Option.isSome_iff_ne_none.2 hk)
      rw [hresp] at href
      cases href
    · cases hτ : s.tags[τ] with
      | free => exact .inl rfl
      | outstanding op => exact absurd hτ (htags τ op)
      | quarantined => exact .inr rfl

theorem Referenced.kept {s t : State} (h : Referenced s) (refusals : t.refusals = s.refusals)
    (responses : s.responses ⊆ t.responses) : Referenced t := fun k hk => by
  rw [refusals] at hk
  exact responses (h k hk)

theorem NothingHeld.congr {s t : State} (h : NothingHeld s)
    (slots : ∀ i : SlotId, t.slots[i].state = s.slots[i].state) (fences : t.fences = s.fences)
    (entries : t.entries = s.entries) (tags : t.tags = s.tags) (responses : t.responses = s.responses) :
    NothingHeld t := by
  simpa only [NothingHeld, slots, fences, entries, tags, responses] using h

/-! ## What publishes keeps every reference -/

theorem publish_grows (s t : State) : t.responses ⊆ (publish s t).responses := List.subset_append_left _ _

theorem conclude_grows (s t : State) : t.responses ⊆ (conclude s t).responses := by
  have h : (conclude s t).responses = (publish s t).responses := by simp [conclude]
  rw [h]
  exact publish_grows s t

theorem conclude_referenced {s t u : State} (h : Referenced s) (refusals : u.refusals = s.refusals)
    (responses : u.responses = s.responses) : Referenced (conclude t u) :=
  h.kept (by simp [refusals]) (responses ▸ conclude_grows t u)

theorem Referenced.of_frame {s t : State} (h : Referenced s) (refusals : t.refusals = s.refusals)
    (responses : t.responses = s.responses) : Referenced t := h.kept refusals (responses ▸ List.Subset.refl _)

theorem grant_referenced {s : State} (h : Referenced s) : Referenced (nextSlotGrant s) := by
  rcases nextSlotGrant_cases s with he | ⟨i, a, cls, rr, -, he⟩ <;> rw [he]
  · exact h
  · exact (h.of_frame (t := grantSlot s i a cls rr) (by simp) (by simp)).kept (by simp) (publish_grows _ _)

theorem complete_referenced {s : State} (h : Referenced s) (tag : Nat) (o : OpOutcome) :
    Referenced (complete s tag o) := by
  unfold complete
  split
  · unfold completeTag
    split
    · exact conclude_referenced h (by simp) (by simp)
    · exact h.of_frame (by simp) (by simp)
    · exact h.of_frame (by simp) (by simp)
  · exact h.of_frame (by simp) (by simp)

theorem answerMgmt_referenced {s : State} (h : Referenced s) (st : MgmtStatus) (v : Word) :
    Referenced (answerMgmt s st v) := h.of_frame (by simp) (by simp)

theorem commit_referenced {s : State} (h : Referenced s) : Referenced (commitPart s) := by
  have hvalidate : Referenced (validateAndCommit s) := by
    unfold validateAndCommit
    split
    · exact answerMgmt_referenced h _ _
    · exact answerMgmt_referenced (conclude_referenced h (by simp) (by simp)) _ _
  unfold commitPart
  split
  · exact answerMgmt_referenced h _ _
  all_goals exact hvalidate

theorem drain_referenced {s : State} (h : Referenced s) : Referenced (drainPart s) :=
  h.of_frame (by simp) (by unfold drainPart; split <;> simp [answerPart, answerBusy])

theorem restart_referenced {s : State} (h : Referenced s) : Referenced (restartPart s) := by
  have hnow : Referenced (restartNow s) := conclude_referenced h (by simp) (by simp)
  unfold restartPart
  split
  case h_4 => exact answerMgmt_referenced h _ _
  all_goals exact answerMgmt_referenced hnow _ _

theorem intake_referenced {s : State} (h : Referenced s) (r : Request) : Referenced (intake s r) := by
  rcases intake_cases s r with he | ⟨k, he⟩ | ⟨st, k, -, he⟩ | ⟨a, w, i, -, -, he⟩ | ⟨i, g, k, -, -, he⟩ <;> rw [he]
  · exact h.of_frame (by simp) (by simp)
  · exact h.of_frame (by simp) (by simp)
  · have hrefusals : (refusedInto s r st k).refusals = put s.refusals k
        (some { initiator := initiatorOf r, tag := tagOf r, kind := kindOf r, status := st }) := by simp [refusedInto]
    have hresp : (refusedInto s r st k).responses = s.responses ++ [.refusal k] := by simp [refusedInto]
    intro j hj
    rw [hresp]
    by_cases hjk : j = k
    · rw [hjk]; exact List.mem_append_right _ List.mem_cons_self
    · rw [hrefusals, get_put_ne _ _ hjk] at hj
      exact List.mem_append_left _ (h j hj)
  · exact h.of_frame (by simp) (by simp)
  · rw [acceptFence_eq]
    have hresp : (demandedFor s i g k).responses = s.responses := by simp [demandedFor]
    refine h.kept (by simp [demandedFor]) ?_
    rw [setAnswer_responses, ← hresp]
    exact publish_grows s _

theorem consumed_referenced {s : State} (h : Referenced s) {rest : List Ref} {ref : Ref}
    (hs : s.responses = ref :: rest) : Referenced (consumed s rest ref) := by
  obtain ⟨-, -, -, -, -, hresp⟩ := consumed_frame s rest ref
  have hrest (k : RefusalId) (hk : s.refusals[k].isSome = true) (hne : ref ≠ .refusal k) : Ref.refusal k ∈ rest := by
    have hmem := h k hk
    rw [hs] at hmem
    exact (List.mem_cons.1 hmem).resolve_left fun he => hne he.symm
  intro j hj
  rw [hresp]
  cases ref with
  | slot i =>
    obtain ⟨-, -, hrefusals⟩ := consumed_slot_frame s rest i
    rw [hrefusals] at hj
    exact hrest j hj nofun
  | fence k =>
    obtain ⟨-, -, hrefusals⟩ := consumed_fence_frame s rest k
    rw [hrefusals] at hj
    exact hrest j hj nofun
  | refusal k =>
    obtain ⟨-, -, -, hrefusals, -⟩ := consumed_refusal_frame s rest k
    rw [hrefusals, get_put] at hj
    split at hj
    · cases hj
    · next hne => exact hrest j hj fun he => hne (Ref.refusal.inj he).symm

/-- What leaves on account of a delivery leaves the queue, the refusal records and the part state. -/
theorem departed_frame (s : State) (rest : List Ref) (ref : Ref) :
    (departed s rest ref).refusals = (consumed s rest ref).refusals ∧
    (departed s rest ref).responses = (consumed s rest ref).responses ∧ (departed s rest ref).part = s.part := by
  cases ref with
  | slot i =>
    simp only [departed]
    split <;> simp [consumed]
  | fence k => simp [departed, consumed]
  | refusal k => simp [departed, consumed]

theorem deliver_referenced {s : State} (h : Referenced s) : Referenced (deliver s) := by
  cases hs : s.responses with
  | nil => simpa only [deliver, hs] using h
  | cons ref rest =>
    obtain ⟨hrefusals, hresp, -⟩ := departed_frame s rest ref
    rw [deliver_eq hs]
    exact conclude_referenced (consumed_referenced h hs) hrefusals hresp

theorem effect_referenced (c : Instr) {s : State} (h : Referenced s) : Referenced (effect c s) := by
  cases c with
  | presentation r => exact intake_referenced h r
  | delivery => exact deliver_referenced h
  | grant => exact grant_referenced h
  | completion tag st line => exact complete_referenced h tag _
  | timeBaseStep =>
    simp only [effect, timeStep]
    exact conclude_referenced h (by simp) (by simp)
  | responseTimeout τ => exact conclude_referenced h (by simp) (by simp)
  | commit => exact commit_referenced h
  | drain => exact drain_referenced h
  | restart => exact restart_referenced h
  | hardReset =>
    intro k hk
    have hnone : (afterReset s).refusals[k] = none := by simp [afterReset, State.reset]
    rw [show (effect .hardReset s).refusals[k] = none from hnone] at hk
    cases hk
  | drainGrant | hold _ | refillExpiry | aged _ | urgentEpisode _ | resetDeassert | shortFrame | unknownCommand _
  | readItem _ | writeItem _ _ | discardStaged | resume | takeFault | ackAlert _ | clearCounters | status _ =>
    unfold effect
    exact h.of_frame (by simp) (by simp)

/-! ## A part becomes QUIESCENT only by its empty conditions (R164) -/

theorem judgeEmpty_quiescent {s : State} (h : (judgeEmpty s).part = .quiescent) :
    s.part = .quiescent ∨ NothingHeld (judgeEmpty s) := by
  by_cases hempty : emptyConditions s = true
  · exact .inr ((nothingHeld_iff.2 hempty).congr (by simp) (by simp) (by simp) (by simp) (by simp))
  · have hstays : judgeEmpty s = s := by
      unfold judgeEmpty
      split <;> simp only [hempty, Bool.false_eq_true, if_false]
    exact .inl (hstays ▸ h)

theorem conclude_quiescent {s t : State} (h : (conclude s t).part = .quiescent) :
    t.part = .quiescent ∨ NothingHeld (conclude s t) := judgeEmpty_quiescent h

theorem answerMgmt_nothingHeld {s : State} (h : NothingHeld s) (st : MgmtStatus) (v : Word) :
    NothingHeld (answerMgmt s st v) := h.congr (by simp) (by simp) (by simp) (by simp) (by simp)

theorem drain_quiescent {s : State} (h : (drainPart s).part = .quiescent) :
    s.part = .quiescent ∨ NothingHeld (drainPart s) := by
  unfold drainPart at h ⊢
  split at h
  · next hs =>
    rcases judgeEmpty_quiescent (s := demandAll (setPart s .draining)) (by simpa [answerPart] using h) with hq | hn
    · simp at hq
    · simp only [hs]
      exact .inr (answerMgmt_nothingHeld hn _ _)
  all_goals exact .inl (by simpa [answerPart, answerBusy] using h)

theorem restart_quiescent {s : State} (h : (restartPart s).part = .quiescent) :
    s.part = .quiescent ∨ NothingHeld (restartPart s) := by
  have hnow (hp : (restartNow s).part = .quiescent) : NothingHeld (answerPart (restartNow s)) :=
    answerMgmt_nothingHeld ((conclude_quiescent hp).resolve_left (by simp)) _ _
  unfold restartPart at h ⊢
  split at h
  case h_4 hs => exact .inl (by simpa [answerBusy] using h)
  all_goals
    next hs =>
      simp only [hs]
      exact .inr (hnow (by simpa [answerPart] using h))

theorem commit_quiescent {s : State} (h : (commitPart s).part = .quiescent) :
    s.part = .quiescent ∨ NothingHeld (commitPart s) := by
  have hvalidate (hp : (validateAndCommit s).part = .quiescent) :
      s.part = .quiescent ∨ NothingHeld (validateAndCommit s) := by
    unfold validateAndCommit at hp ⊢
    split at hp
    · exact .inl (by simpa using hp)
    · rcases conclude_quiescent (s := s) (t := _) (by simpa [commitStaged] using hp) with hq | hn
      · exact .inl (by simpa using hq)
      · exact .inr (answerMgmt_nothingHeld hn _ _)
  unfold commitPart at h ⊢
  split at h
  · exact .inl (by simpa using h)
  all_goals next hs => simpa only [hs] using hvalidate h

theorem complete_quiescent {s : State} {tag : Nat} {o : OpOutcome} (h : (complete s tag o).part = .quiescent) :
    s.part = .quiescent ∨ NothingHeld (complete s tag o) := by
  have htag {τ : TagId} (hp : (completeTag s τ o).part = .quiescent) :
      s.part = .quiescent ∨ NothingHeld (completeTag s τ o) := by
    unfold completeTag at hp ⊢
    split at hp
    · exact (conclude_quiescent hp).imp_left fun hq => by simpa using hq
    all_goals exact .inl (by simpa using hp)
  unfold complete at h ⊢
  split at h
  · next hlt =>
    rw [dif_pos hlt]
    exact htag h
  · exact .inl (by simpa using h)

theorem effect_quiescent (c : Instr) {s : State} (h : (effect c s).part = .quiescent) :
    s.part = .quiescent ∨ NothingHeld (effect c s) := by
  cases c with
  | delivery =>
    cases hs : s.responses with
    | nil => exact .inl (by simpa only [effect, deliver, hs] using h)
    | cons ref rest =>
      simp only [effect, deliver_eq hs] at h ⊢
      obtain ⟨-, -, hpart⟩ := departed_frame s rest ref
      rw [← hpart]
      exact conclude_quiescent h
  | completion tag st line =>
    exact complete_quiescent h
  | timeBaseStep =>
    simp only [effect, timeStep] at h ⊢
    exact (conclude_quiescent h).imp_left fun hq => by simpa using hq
  | responseTimeout τ => exact (conclude_quiescent h).imp_left fun hq => by simpa using hq
  | commit => exact commit_quiescent h
  | drain => exact drain_quiescent h
  | resume =>
    simp only [effect, resumePart] at h
    split at h <;> simp_all [answerPart, answerBusy]
  | restart => exact restart_quiescent h
  | hardReset =>
    have hrunning : PartState.running = .quiescent := h
    cases hrunning
  | presentation _ | grant | drainGrant | hold _ | refillExpiry | aged _ | urgentEpisode _ | resetDeassert | shortFrame
  | unknownCommand _ | readItem _ | writeItem _ _ | discardStaged | takeFault | ackAlert _ | clearCounters | status _ =>
    unfold effect at h
    exact .inl (by simpa using h)

/-! ## A QUIESCENT part that holds nothing goes on holding nothing (R165) -/

theorem choose_drain {s : State} {e : EntryId} (h : choose s = some (.drain e)) :
    s.entries[e].state = .drainPending := by
  have hslot {classes : List ClassId} {p : ClassId → Bool} {rr : Bool}
      (h : firstOffer s classes p rr = some (.drain e)) : False := by
    obtain ⟨k, -, hk⟩ := List.exists_of_findSome?_eq_some h
    obtain ⟨_, -, heq⟩ := Option.map_eq_some_iff.1 hk
    cases heq
  have hdrain {b : Bool} {p : EntryId → Bool} {key : EntryId → Nat} {q : EntryId → Bool}
      (hp : ∀ d, p d = (s.entries[d].state == .drainPending && q d))
      (h : (if b then (oldestEntry p key).map Choice.drain else none) = some (.drain e)) :
      s.entries[e].state = .drainPending := by
    split at h
    · obtain ⟨d, hd, heq⟩ := Option.map_eq_some_iff.1 h
      cases heq
      have hpe := ((oldestEntry_spec p key).1 e hd).1
      rw [hp] at hpe
      exact beq_iff_eq.1 (Bool.and_eq_true_iff.1 hpe).1
    · cases h
  simp only [choose, Option.or_eq_some_iff] at h
  rcases h with h | ⟨-, h | ⟨-, h | ⟨-, h | ⟨-, h⟩⟩⟩⟩
  · exact hdrain (fun _ => rfl) h
  · exact (hslot h).elim
  · exact (hslot h).elim
  · exact hdrain (fun _ => rfl) h
  · exact (hslot h).elim

namespace NothingHeld

variable {s t : State}

theorem grant (h : NothingHeld s) : nextSlotGrant s = s := by
  obtain ⟨hslots, -, -, -, -⟩ := h
  rcases nextSlotGrant_cases s with he | ⟨i, a, cls, rr, hq, -⟩
  · exact he
  · rw [hslots] at hq
    cases hq

theorem drainGrant (h : NothingHeld s) : nextDrainGrant s = s := by
  obtain ⟨-, -, hentries, -, -⟩ := h
  unfold nextDrainGrant
  split
  · next e he =>
    have hp := choose_drain he
    rw [hentries] at hp
    cases hp
  · rfl
  · rfl

theorem deliver (h : NothingHeld s) : deliver s = s := by
  obtain ⟨-, -, -, -, hresp⟩ := h
  simp only [Machine.deliver, hresp]

/-- A FREE entry takes no reason. -/
theorem addReason (h : NothingHeld s) (e : EntryId) (r : Reason) : addReason s e r = s := by
  obtain ⟨-, -, hentries, -, -⟩ := h
  have hlive : entryLive s.entries[e] = false := by simp only [entryLive, hentries]; rfl
  simp only [Machine.addReason, withReason_other hlive, setEntry, put_get]
  rfl

theorem judgeAged (h : NothingHeld s) (e : EntryId) : judgeAged s e = s := by
  unfold Machine.judgeAged
  split
  · exact h.addReason e .aged
  · rfl

theorem judgeAllAged (h : NothingHeld s) : judgeAllAged s = s :=
  forEach_keeps (P := (· = s)) (fun _ e ht => by rw [ht, h.judgeAged e]) rfl

theorem judgePressure (h : NothingHeld s) : judgePressure s = s := by
  unfold Machine.judgePressure
  split
  · split
    · exact h.addReason _ .pressure
    · rfl
  · rfl

theorem judgeTimeout (h : NothingHeld s) (τ : TagId) : judgeTimeout s τ = s := by
  obtain ⟨-, -, -, htags, -⟩ := h
  unfold Machine.judgeTimeout
  split
  · next op hop => exact absurd hop (htags τ op)
  · rfl
  · rfl

theorem judgeAllTimeouts (h : NothingHeld s) : judgeAllTimeouts s = s :=
  forEach_keeps (P := (· = s)) (fun _ τ ht => by rw [ht, h.judgeTimeout τ]) rfl

/-- An event that ends with nothing held publishes nothing. -/
theorem conclude (h : NothingHeld t) : NothingHeld (conclude s t) := by
  obtain ⟨hslots, hfences, -, -, hresp⟩ := id h
  have hready : readyRefs s t = [] := by
    have hs : t.arrival.filter (newlyDone s t) = [] :=
      List.filter_eq_nil_iff.2 fun i _ => by rw [newlyDone, hslots]; exact Bool.false_ne_true
    have hf : t.fenceOrder.filter (newlyCompleted s t) = [] :=
      List.filter_eq_nil_iff.2 fun k _ => by rw [newlyCompleted, hfences]; exact Bool.false_ne_true
    simp only [readyRefs, hs, hf, List.map_nil, List.append_nil]
  have hpublish : (Machine.conclude s t).responses = t.responses ++ readyRefs s t := by
    simp only [Machine.conclude, judgeEmpty_frame, publish, setResponses_responses]
  exact h.congr (by simp) (by simp) (by simp) (by simp) (by rw [hpublish, hready, List.append_nil])

theorem timeStep (h : NothingHeld s) : NothingHeld (timeStep s) := by
  obtain ⟨hslots, -, -, -, -⟩ := id h
  have haged (i : SlotId) : (advanceTime s).slots[i].state = s.slots[i].state := by
    rw [advanceTime_spec, get_tabulate, agedSlot_eq]
  have hjudged : NothingHeld (judgeAllUrgency (judgeRefill (advanceTime s))) :=
    h.congr (fun i => by simpa using haged i) (by simp) (by simp) (by simp) (by simp)
  unfold Machine.timeStep
  rw [hjudged.judgeAllAged, hjudged.judgeAllTimeouts]
  exact hjudged.conclude

theorem complete (h : NothingHeld s) (tag : Nat) (o : OpOutcome) : NothingHeld (complete s tag o) := by
  obtain ⟨hslots, hfences, hentries, htags, hresp⟩ := id h
  have hstray : NothingHeld (strayCompletion s) := h.congr (by simp) (by simp) (by simp) (by simp) (by simp)
  unfold Machine.complete
  split
  · next hlt =>
    unfold completeTag
    split
    · next op hop => exact absurd hop (htags _ op)
    · have hfreed : (lateCompletion s ⟨tag, hlt⟩).tags = put s.tags ⟨tag, hlt⟩ .free := by simp [lateCompletion, setTag]
      refine ⟨by simpa using hslots, by simpa using hfences, by simpa using hentries, fun τ op => ?_,
        by simpa using hresp⟩
      rw [hfreed, get_put]
      split
      · nofun
      · exact htags τ op
    · exact hstray
  · exact hstray

theorem commit (h : NothingHeld s) : NothingHeld (commitPart s) := by
  have hjudged : NothingHeld (judgeAllUrgency (clampBalances (adoptStaged s))) :=
    h.congr (by simp) (by simp) (by simp) (by simp) (by simp)
  have hcommitted : NothingHeld (commitStaged s) := by
    unfold commitStaged
    rw [hjudged.judgeAllAged, hjudged.judgePressure, hjudged.judgeAllTimeouts]
    exact hjudged.conclude
  have hvalidate : NothingHeld (validateAndCommit s) := by
    unfold validateAndCommit
    split
    · exact answerMgmt_nothingHeld h _ _
    · exact answerMgmt_nothingHeld hcommitted _ _
  unfold commitPart
  split
  · exact answerMgmt_nothingHeld h _ _
  all_goals exact hvalidate

/-- A QUIESCENT part DEFERs every presentation (R6). -/
theorem intake (h : NothingHeld s) (hq : s.part = .quiescent) (r : Request) : NothingHeld (intake s r) := by
  have hdefer : Machine.intake s r = deferUnclassed s := by rw [Machine.intake, hq]; rfl
  rw [hdefer]
  exact h.congr (by simp) (by simp) (by simp) (by simp) (by simp)

end NothingHeld

/-- What a QUIESCENT part makes of a command leaves nothing held where it is QUIESCENT still. -/
theorem effect_nothingHeld (c : Instr) {s : State} (hq : s.part = .quiescent) (h : NothingHeld s)
    (ht : (effect c s).part = .quiescent) : NothingHeld (effect c s) := by
  cases c with
  | presentation r => exact h.intake hq r
  | delivery => rw [effect, h.deliver]; exact h
  | grant => rw [effect, h.grant]; exact h
  | drainGrant => rw [effect, h.drainGrant]; exact h
  | completion tag st line => exact h.complete tag _
  | timeBaseStep => exact h.timeStep
  | aged e => rw [effect, h.judgeAged e]; exact h
  | responseTimeout τ =>
    rw [effect, h.judgeTimeout τ]
    exact h.conclude
  | commit => exact h.commit
  | drain =>
    simp only [effect, drainPart, hq]
    exact answerMgmt_nothingHeld h _ _
  | resume => simp [effect, resumePart, hq, answerPart] at ht
  | restart =>
    have hnow : effect .restart s = answerPart (restartNow s) := by simp only [effect, restartPart, hq]
    rw [hnow] at ht ⊢
    have hp : (restartNow s).part = .quiescent := by simpa [answerPart] using ht
    exact answerMgmt_nothingHeld ((conclude_quiescent hp).resolve_left (by simp)) _ _
  | hardReset =>
    have hrunning : PartState.running = .quiescent := ht
    cases hrunning
  | hold _ | refillExpiry | urgentEpisode _ | resetDeassert | shortFrame | unknownCommand _ | readItem _ | writeItem _ _
  | discardStaged | takeFault | ackAlert _ | clearCounters | status _ =>
    unfold effect
    exact h.congr (by simp) (by simp) (by simp) (by simp) (by simp)

theorem effect_quiescentLaw (c : Instr) {s : State} (h : QuiescentLaw s) : QuiescentLaw (effect c s) := by
  obtain ⟨href, hempty⟩ := quiescentLaw_iff.1 h
  refine quiescentLaw_iff.2 ⟨effect_referenced c href, fun ht => ?_⟩
  rcases effect_quiescent c ht with hs | hn
  · exact effect_nothingHeld c hs (hempty hs) ht
  · exact hn

/-- Settles O53: references are only ever lost with what they name, a part becomes QUIESCENT only with nothing held, and
nothing is taken up in QUIESCENT. -/
theorem stepKeepsQuiescentLaw : Obligations.StepKeepsQuiescentLaw := fun _ _ =>
  step_keeps (fun _ _ h => h) fun c _ => effect_quiescentLaw c

/-! ## The checks of R7, from the request's fields and the item values -/

theorem windowCovers_eq_false {w : WindowItems} {a : LineAddr} : windowCovers w a = false ↔ ¬ Covers w a := by
  rw [covers_iff, Bool.not_eq_true]

theorem coveredBy_iff {c : ConfigSet} {a : LineAddr} {w : WindowIndex} :
    CoveredBy c a w ↔ coveringWindow c a = some w := by
  unfold coveringWindow
  split
  · next v hv =>
    obtain ⟨hcov, -⟩ := firstWhere_eq_some.1 hv
    cases w with
    | window u =>
      simp only [Option.some.injEq, WindowIndex.window.injEq, CoveredBy]
      rw [← Option.some_inj, ← hv, firstWhere_eq_some]
      exact and_congr covers_iff (forall₂_congr fun _ _ => windowCovers_eq_false.symm)
    | dflt => exact ⟨fun h => absurd (covers_iff.2 hcov) (h.1 v), nofun⟩
  · next hnone =>
    have hno (v : WindowId) : ¬ Covers c.windows[v] a := windowCovers_eq_false.1 (firstWhere_eq_none.1 hnone v)
    cases w with
    | window u => exact ⟨fun h => absurd h.1 (hno u), fun h => by split at h <;> cases h⟩
    | dflt =>
      simp only [CoveredBy, hno, not_false_eq_true, implies_true, true_and, flagOf_iff]
      split
      · next h => exact iff_of_true h rfl
      · next h => exact iff_of_false h nofun

theorem notCovered_iff {c : ConfigSet} {a : LineAddr} : NotCovered c a ↔ coveringWindow c a = none := by
  unfold coveringWindow
  split
  · next v hv => exact ⟨fun h => absurd (covers_iff.2 (firstWhere_eq_some.1 hv).1) (h.1 v), nofun⟩
  · next hnone =>
    have hno (v : WindowId) : ¬ Covers c.windows[v] a := windowCovers_eq_false.1 (firstWhere_eq_none.1 hnone v)
    simp only [NotCovered, hno, not_false_eq_true, implies_true, true_and, flagOf_iff]
    split
    · next h => exact iff_of_false (fun hn => hn h) nofun
    · next h => exact iff_of_true h rfl

theorem initiatorEnabled_iff {c : ConfigSet} {i : InitiatorId} :
    initiatorEnabled c i = true ↔ c.initiators[i].enabled = 1 := flagOf_iff

/-- What passes steps 1 to 3 fails where steps 4 and 5 fail. -/
theorem checkFailure_of_passesFirst {s : State} {r : Request} (h : PassesFirstChecks s r) :
    checkFailure s r = (accessOf r).bind (windowFailure s) := by
  obtain ⟨hshape, hen, htag⟩ := h
  have hfree : tagInUse s (initiatorOf r) (tagOf r) = false := htag
  rw [checkFailure, wellShaped_iff.1 hshape, initiatorEnabled_iff.2 hen, hfree]
  cases accessOf r <;> rfl

theorem windowFailure_of_notCovered {s : State} {a : AccessReq} (h : NotCovered s.active a.line) :
    windowFailure s a = some .errDecode := by rw [windowFailure, notCovered_iff.1 h]

theorem windowFailure_of_coveredBy {s : State} {a : AccessReq} {w : WindowIndex} (h : CoveredBy s.active a.line w) :
    windowFailure s a = if accessAllowed (windowAttrs s.active w) (initiatorGroup s.active a.initiator) a.kind
      then none else some .errDenied := by rw [windowFailure, coveredBy_iff.1 h]

theorem checkFailure_of_failsFirst {s : State} {r : Request} {st : Status} (h : FailsFirst s r st) :
    checkFailure s r = some st := by
  rcases h with ⟨hshape, rfl⟩ | ⟨hshape, ⟨hen, rfl⟩ | ⟨hen, ⟨htag, rfl⟩ | ⟨htag, a, hcarries, hwin⟩⟩⟩
  · rw [wellShaped_iff, Bool.not_eq_true] at hshape
    rw [checkFailure, hshape]; rfl
  · have hoff : initiatorEnabled s.active (initiatorOf r) = false :=
      Bool.eq_false_iff.2 fun h => hen (initiatorEnabled_iff.1 h)
    rw [checkFailure, wellShaped_iff.1 hshape, hoff]; rfl
  · have huse : tagInUse s (initiatorOf r) (tagOf r) = true := htag
    rw [checkFailure, wellShaped_iff.1 hshape, initiatorEnabled_iff.2 hen, huse]; rfl
  · rw [checkFailure_of_passesFirst ⟨hshape, hen, htag⟩, carries_iff.1 hcarries, Option.bind_some]
    rcases hwin with ⟨hnot, rfl⟩ | ⟨w, hcov, hdeny, rfl⟩
    · exact windowFailure_of_notCovered hnot
    · rw [windowFailure_of_coveredBy hcov, if_neg fun hallow => hdeny (allows_iff.2 hallow)]

/-! ## What intake makes of a request by its checks -/

theorem intake_failing {s : State} {r : Request} {st : Status} (hp : s.part = .running) (h : FailsFirst s r st) :
    intake s r = refuse s r st := by
  rw [intake, hp, checkFailure_of_failsFirst h]; rfl

theorem intake_fence {s : State} {i : InitiatorId} {g : ReqTag} (hp : s.part = .running)
    (h : PassesFirstChecks s (.fence i g)) : intake s (.fence i g) = takeFence s i g := by
  rw [intake, hp, checkFailure_of_passesFirst h]; rfl

theorem intake_access {s : State} {r : Request} {a : AccessReq} {w : WindowIndex} (hp : s.part = .running)
    (h : PassesChecks s r a w) : intake s r = takeAccess s a w := by
  obtain ⟨hfirst, hcarries, hcov, hallow⟩ := h
  have hpass : checkFailure s r = none := by
    rw [checkFailure_of_passesFirst hfirst, carries_iff.1 hcarries, Option.bind_some, windowFailure_of_coveredBy hcov,
      if_pos (allows_iff.1 hallow)]
  rw [intake, hp, hpass]
  simp only [takePassing, carries_iff.1 hcarries, coveredBy_iff.1 hcov]
  rfl

/-! ## A refusal (R10) -/

theorem refuse_lowest {s : State} (r : Request) (st : Status) {k : RefusalId} (hk : s.refusals[k] = none)
    (hlow : ∀ j < k, s.refusals[j].isSome = true) : refuse s r st = refusedInto s r st k := by
  have hfirst : firstWhere (fun j : RefusalId => s.refusals[j].isNone) = some k :=
    firstWhere_eq_some.2 ⟨by rw [hk]; rfl, fun j hj => by rw [Option.isNone_eq_false_iff]; exact hlow j hj⟩
  rw [refuse, hfirst]; rfl

theorem refuse_full {s : State} (r : Request) (st : Status) (h : ∀ k : RefusalId, s.refusals[k].isSome = true) :
    refuse s r st = deferUnclassed s := by
  have hnone : firstWhere (fun j : RefusalId => s.refusals[j].isNone) = none :=
    firstWhere_eq_none.2 fun j => by rw [Option.isNone_eq_false_iff]; exact h j
  rw [refuse, hnone]

/-- REFUSALS by the status of the failed check: the counter of that status rises by one. -/
theorem countRefusal_counters (s : State) (st : Status) : (countRefusal s st).counters =
    { s.counters with
      refusedShape := satAdd s.counters.refusedShape (if st = .errShape then 1 else 0)
      refusedDenied := satAdd s.counters.refusedDenied (if st = .errDenied then 1 else 0)
      refusedTag := satAdd s.counters.refusedTag (if st = .errTag then 1 else 0)
      refusedDecode := satAdd s.counters.refusedDecode (if st = .errDecode then 1 else 0) } := by
  cases st <;> simp [countRefusal]

theorem refusedInto_counters (s : State) (r : Request) (st : Status) (k : RefusalId) :
    (refusedInto s r st k).counters = (countRefusal s st).counters := by
  cases st <;> rfl

/-- Settles O17: the failing check's status is refused into the lowest FREE record. -/
theorem failedCheckIsRefused : Obligations.FailedCheckIsRefused := by
  intro s r st k hr hp hfail hk hlow
  have hexec : exec (.presentation r) s = .next (refusedInto s r st k) := by
    rw [exec_released hr, effect, intake_failing hp hfail, refuse_lowest r st hk hlow]
  have hcounters := (refusedInto_counters s r st k).trans (countRefusal_counters s st)
  refine ⟨_, hexec, by simp [refusedInto], by simp [refusedInto], by simp [refusedInto], ?_, ?_, ?_, ?_, ?_, rfl⟩ <;>
    rw [hcounters]

/-! ## A DEFER (R11) -/

/-- The unmet reservations of the other classes, summed (R51). -/
theorem unmetOthers_eq (s : State) (k : ClassId) : unmetOthers s k =
    (((List.finRange 6).filter (fun j => j ≠ k)).map (fun j => reservation s.active j - occupancy s j)).sum := by
  have hfold (l : List ClassId) (n : Nat) :
      l.foldl (fun t j => if j = k then t else t + (reservation s.active j - occupancy s j)) n =
        n + ((l.filter (fun j => j ≠ k)).map (fun j => reservation s.active j - occupancy s j)).sum := by
    induction l generalizing n with
    | nil => rfl
    | cons j l ih =>
      rw [List.foldl_cons, ih]
      by_cases hj : j = k
      · rw [if_pos hj, List.filter_cons_of_neg (by simpa using hj)]
      · rw [if_neg hj, List.filter_cons_of_pos (by simpa using hj), List.map_cons, List.sum_cons, Nat.add_assoc]
  rw [unmetOthers, hfold, Nat.zero_add]

theorem hasRoom_iff {s : State} {k : ClassId} : HasRoom s k ↔ acceptanceTest s k = true := by
  simp only [HasRoom, acceptanceTest, unmetOthers_eq, Bool.and_eq_true, Bool.or_eq_true, decide_eq_true_eq, and_assoc]

theorem takeAccess_full {s : State} {a : AccessReq} {w : WindowIndex} (h : ¬ HasRoom s (requestClass s a w)) :
    takeAccess s a w = deferClass s (requestClass s a w) := by
  rw [hasRoom_iff, Bool.not_eq_true] at h
  unfold takeAccess
  split
  · rw [h]; rfl
  · rfl

theorem takeAccess_lowest {s : State} {a : AccessReq} {w : WindowIndex} {i : SlotId}
    (h : HasRoom s (requestClass s a w)) (hi : s.slots[i].state = .free) (hlow : ∀ j < i, s.slots[j].state ≠ .free) :
    takeAccess s a w = acceptAccess s a w i := by
  have hfirst : firstWhere (fun j : SlotId => s.slots[j].state == .free) = some i :=
    firstWhere_eq_some.2 ⟨by rw [hi]; rfl, fun j hj => beq_eq_false_iff_ne.2 (hlow j hj)⟩
  rw [takeAccess, hfirst]
  exact if_pos (hasRoom_iff.1 h)

theorem takeFence_lowest {s : State} {i : InitiatorId} {g : ReqTag} {k : FenceId} (hk : s.fences[k].state = .free)
    (hlow : ∀ j < k, s.fences[j].state ≠ .free) : takeFence s i g = acceptFence s i g k := by
  have hfirst : firstWhere (fun j : FenceId => s.fences[j].state == .free) = some k :=
    firstWhere_eq_some.2 ⟨by rw [hk]; rfl, fun j hj => beq_eq_false_iff_ne.2 (hlow j hj)⟩
  rw [takeFence, hfirst]

theorem takeFence_full {s : State} {i : InitiatorId} {g : ReqTag} (h : ∀ k : FenceId, s.fences[k].state ≠ .free) :
    takeFence s i g = deferUnclassed s := by
  have hnone : firstWhere (fun j : FenceId => s.fences[j].state == .free) = none :=
    firstWhere_eq_none.2 fun j => beq_eq_false_iff_ne.2 (h j)
  rw [takeFence, hnone]

/-- A DEFER has one of the two forms; every other answer is an ACCEPT. -/
theorem intake_deferred {s : State} {r : Request} (h : (intake s r).answer = some .defer) :
    intake s r = deferUnclassed s ∨ ∃ k, intake s r = deferClass s k := by
  rcases intake_cases s r with he | he | ⟨st, k, -, he⟩ | ⟨a, w, i, -, -, he⟩ | ⟨i, g, k, -, -, he⟩
  · exact .inl he
  · exact .inr he
  all_goals
    rw [he] at h
    cases h

/-- Settles O18: each cause ends in one of the two forms of a DEFER, and nothing else answers DEFER. -/
theorem presentationDeferred : Obligations.PresentationDeferred := by
  intro s r hr
  have hexec : exec (.presentation r) s = .next (intake s r) := exec_released hr
  rw [hexec]
  refine ⟨fun hp => ?_, fun st hp hfail hfull => ?_, fun hp hpass hfence hfull => ?_, fun a w hp hpass hroom => ?_,
    fun t ht ha => ?_⟩
  · rw [intake, if_pos (bne_iff_ne.2 hp)]; rfl
  · rw [intake_failing hp hfail, refuse_full r st hfull]; rfl
  · obtain ⟨i, g, rfl⟩ := hfence
    rw [intake_fence hp hpass, takeFence_full hfull]; rfl
  · rw [intake_access hp hpass, takeAccess_full hroom]; rfl
  · cases ht
    exact intake_deferred ha

/-! ## The acceptance of a FENCE, field by field (R9, R147 to R149) -/

/-- A demand reaches entries only. -/
theorem demandFence_eq (s : State) (es : List EntryId) :
    demandFence s es = setEntries s (demandFence s es).entries := by
  induction es generalizing s with
  | nil => rfl
  | cons e es ih => exact ih (addReason s e .fence)

/-- Each entry of a list without repetition takes FENCE once. -/
theorem demandFence_entries (s : State) {es : List EntryId} (h : es.Nodup) (d : EntryId) :
    (demandFence s es).entries[d] = if d ∈ es then withReason s.entries[d] .fence s.timeBase else s.entries[d] := by
  induction es generalizing s with
  | nil => rfl
  | cons e es ih =>
    obtain ⟨hnot, hes⟩ := List.nodup_cons.1 h
    have hstep : (demandFence s (e :: es)).entries[d] = (demandFence (addReason s e .fence) es).entries[d] := rfl
    rw [hstep, ih _ hes, addReason_entries]
    by_cases hd : d = e
    · subst hd
      rw [if_neg hnot, if_pos List.mem_cons_self, get_put_self]
    · rw [get_put_ne _ _ hd]
      simp only [List.mem_cons, hd, false_or, addReason_frame]

theorem capturedFence_waitEntries_nodup (s : State) (i : InitiatorId) (g : ReqTag) :
    (capturedFence s i g).waitEntries.Nodup := by
  simp only [capturedFence]
  exact (List.nodup_finRange 16).filter _

theorem demandedFor_entries (s : State) (i : InitiatorId) (g : ReqTag) (k : FenceId) (d : EntryId) :
    (demandedFor s i g k).entries[d] =
      if d ∈ (capturedFence s i g).waitEntries then withReason s.entries[d] .fence s.timeBase else s.entries[d] :=
  demandFence_entries _ (capturedFence_waitEntries_nodup s i g) d

/-- What an accepted FENCE makes of the state. -/
theorem acceptFence_fields (s : State) (i : InitiatorId) (g : ReqTag) (k : FenceId) :
    acceptFence s i g k = { s with
      tagTable := put s.tagTable i (put s.tagTable[i] g true)
      fences := put s.fences k (settleFence (capturedFence s i g)), fenceOrder := s.fenceOrder ++ [k]
      entries := (demandedFor s i g k).entries
      responses := s.responses ++ readyRefs s (demandedFor s i g k), answer := some .accept } := by
  have hresp : (demandedFor s i g k).responses = s.responses := by simp [demandedFor]
  have hpublish : publish s (demandedFor s i g k) = setResponses (demandedFor s i g k)
      (s.responses ++ readyRefs s (demandedFor s i g k)) := by rw [publish, hresp]
  rw [acceptFence_eq, hpublish]
  have hdemanded : demandedFor s i g k = setEntries _ (demandedFor s i g k).entries := demandFence_eq _ _
  exact congrArg (fun u => setAnswer (setResponses u (s.responses ++ readyRefs s (demandedFor s i g k))) (some .accept))
    hdemanded

/-- The references an accepted FENCE makes ready: its own, if it waits for nothing. -/
theorem mem_readyRefs_demandedFor {s : State} (i : InitiatorId) (g : ReqTag) {k : FenceId}
    (hk : s.fences[k].state = .free) {ref : Ref} : ref ∈ readyRefs s (demandedFor s i g k) ↔
      ref = .fence k ∧ (settleFence (capturedFence s i g)).state = .completed := by
  have hslots : (demandedFor s i g k).slots = s.slots := by simp [demandedFor]
  have horder : (demandedFor s i g k).fenceOrder = s.fenceOrder ++ [k] := by simp [demandedFor]
  cases ref with
  | slot j =>
    rw [slot_mem_readyRefs, hslots]
    exact iff_of_false (fun h => h.2.2 h.2.1) (fun h => Ref.noConfusion h.1)
  | fence j =>
    rw [fence_mem_readyRefs, horder, demandedFor_fences, Ref.fence.injEq]
    by_cases hj : j = k
    · subst hj
      simp only [List.mem_append, List.mem_cons, true_or, or_true, if_true, hk, true_and, ne_eq, reduceCtorEq,
        not_false_eq_true, and_true]
    · rw [if_neg hj]
      exact iff_of_false (fun h => h.2.2 h.2.1) (fun h => hj h.1)
  | refusal j => exact iff_of_false refusal_not_mem_readyRefs (fun h => Ref.noConfusion h.1)

theorem settleFence_fields (f : FenceRecord) :
    settleFence f = { f with state := (settleFence f).state, status := (settleFence f).status } := by
  unfold settleFence
  split <;> rfl

/-- Settles O20: the record captured and settled, and FENCE demanded of the entries it waits for. -/
theorem fenceAccepted : Obligations.FenceAccepted := by
  intro s i g k hr hp hen htag hk hlow
  have hexec : exec (.presentation (.fence i g)) s = .next (acceptFence s i g k) := by
    rw [exec_released hr, effect, intake_fence hp ⟨trivial, hen, htag⟩, takeFence_lowest hk hlow]
  have hself : (acceptFence s i g k).fences[k] = settleFence (capturedFence s i g) := by
    rw [acceptFence_fields]
    exact get_put_self _ _ _
  have hwait : (settleFence (capturedFence s i g)).waitSlots = (capturedFence s i g).waitSlots ∧
      (settleFence (capturedFence s i g)).waitFences = (capturedFence s i g).waitFences ∧
      (settleFence (capturedFence s i g)).waitEntries = (capturedFence s i g).waitEntries := by
    rw [settleFence_fields]
    exact ⟨rfl, rfl, rfl⟩
  obtain ⟨hws, hwf, hwe⟩ := hwait
  have hresp : (acceptFence s i g k).responses = s.responses ++ readyRefs s (demandedFor s i g k) := by
    rw [acceptFence_fields]
  obtain ⟨hcomplete, hwaits⟩ := settleFence_spec (capturedFence s i g)
  refine ⟨_, hexec, by rw [acceptFence_fields], by rw [acceptFence_fields], ?_⟩
  simp only [hself, hws, hwf, hwe]
  refine ⟨fun j => ?_, fun j => ?_, fun e => ?_, ⟨fun hw => ?_, fun hw => ?_⟩, ?_, ?_, ?_, ?_, ?_, fun j hj => ?_,
    by rw [acceptFence_fields], fun e => ?_, ?_⟩
  · simp only [capturedFence, slotLive, List.mem_filter, List.mem_finRange, true_and, Bool.and_eq_true, beq_iff_eq,
      bne_iff_ne]
  · simp only [capturedFence, List.mem_filter, List.mem_finRange, true_and, Bool.and_eq_true, beq_iff_eq, bne_iff_ne]
  · simp only [capturedFence, List.mem_filter, List.mem_finRange, true_and, Bool.and_eq_true, bne_iff_ne]
  · rw [hwaits hw, hresp]
    refine ⟨rfl, rfl, ?_⟩
    have hnone : readyRefs s (demandedFor s i g k) = [] := List.eq_nil_iff_forall_not_mem.2 fun ref hm => by
      obtain ⟨-, hc⟩ := (mem_readyRefs_demandedFor i g hk).1 hm
      rw [hwaits hw] at hc
      cases hc
    rw [hnone, List.append_nil]
  · have hdone := hcomplete (not_not.1 hw)
    refine ⟨by rw [hdone], by rw [hdone]; rfl, _, hresp, fun ref => ?_⟩
    rw [mem_readyRefs_demandedFor i g hk, hdone]
    exact and_iff_left rfl
  · rw [settleFence_fields]; rfl
  · rw [settleFence_fields]; rfl
  · rw [settleFence_fields]; rfl
  · rw [settleFence_fields]; rfl
  · rw [settleFence_fields]; rfl
  · rw [acceptFence_fields]
    exact get_put_ne _ _ hj
  · rw [acceptFence_fields]
    exact demandedFor_entries s i g k e
  · rw [acceptFence_fields]

/-! ## The end of an event, field by field (R15, R164, R170) -/

/-- The judgement of the empty conditions reaches the part state, what a restart's completion sets, and two causes. -/
theorem judgeEmpty_fields (s : State) : ∃ p q b c r, judgeEmpty s =
    { s with part := p, pointer := q, balances := b, causes := { s.causes with drained := c, restarted := r } } := by
  unfold judgeEmpty
  split
  · split <;> exact ⟨_, _, _, _, _, rfl⟩
  · split <;> exact ⟨_, _, _, _, _, rfl⟩
  all_goals exact ⟨_, _, _, _, _, rfl⟩

theorem conclude_fields (s u : State) : ∃ p q b c r, conclude s u =
    { u with
      responses := u.responses ++ readyRefs s u, part := p, pointer := q, balances := b
      causes := { u.causes with drained := c, restarted := r } } := judgeEmpty_fields (publish s u)

theorem conclude_responses (s u : State) : (conclude s u).responses = u.responses ++ readyRefs s u := by
  simp only [conclude, judgeEmpty_frame, publish_responses]

theorem nothingHeld_judgeEmpty {s : State} : NothingHeld (judgeEmpty s) ↔ NothingHeld s := by
  simp only [NothingHeld, judgeEmpty_frame]

/-- The part state after the empty conditions are judged. -/
theorem judgeEmpty_partFollows {s u : State} (part : u.part = s.part) (pointer : u.pointer = s.pointer)
    (causes : u.causes = s.causes) (active : u.active = s.active) : PartFollows s (judgeEmpty u) u.balances := by
  have hheld : NothingHeld (judgeEmpty u) ↔ emptyConditions u = true := nothingHeld_judgeEmpty.trans nothingHeld_iff
  unfold PartFollows
  rw [hheld]
  cases hp : s.part with
  | running =>
    rw [show judgeEmpty u = u by simp only [judgeEmpty, part, hp], part, hp, pointer, causes]
    exact ⟨rfl, rfl, rfl, rfl, rfl⟩
  | quiescent =>
    rw [show judgeEmpty u = u by simp only [judgeEmpty, part, hp], part, hp, pointer, causes]
    exact ⟨rfl, rfl, rfl, rfl, rfl⟩
  | draining =>
    rw [judgeEmpty_draining (part.trans hp)]
    refine ⟨fun hn => ?_, fun he => ?_⟩
    · rw [if_neg hn, part, hp, pointer, causes]
      exact ⟨rfl, rfl, rfl, rfl, rfl⟩
    · rw [if_pos he, ← pointer, ← causes]
      exact ⟨rfl, rfl, rfl, rfl, rfl⟩
  | restarting =>
    rw [judgeEmpty_restarting (part.trans hp)]
    refine ⟨fun hn => ?_, fun he => ?_⟩
    · rw [if_neg hn, part, hp, pointer, causes]
      exact ⟨rfl, rfl, rfl, rfl, rfl⟩
    · rw [if_pos he, ← causes, ← active]
      exact ⟨rfl, rfl, rfl, rfl, fun k => get_tabulate _ k⟩

/-- The part state after an event that reaches none of what it reads. -/
theorem conclude_partFollows {s u : State} (part : u.part = s.part) (pointer : u.pointer = s.pointer)
    (causes : u.causes = s.causes) (active : u.active = s.active) (balances : u.balances = s.balances) :
    PartFollows s (conclude s u) s.balances :=
  balances ▸ judgeEmpty_partFollows (u := publish s u) part pointer causes active

/-! ## What leaves the wait sets -/

/-- A record settled after a member has left, and any other as it was. -/
theorem leavesWaitSets_of {member : FenceRecord → Prop} {rest : FenceRecord → FenceRecord} {f g : FenceRecord}
    (faulted : (rest f).faulted = f.faulted)
    (leaves : f.state = .waiting → member f → g = settleFence (rest f))
    (stays : ¬ (f.state = .waiting ∧ member f) → g = f) : LeavesWaitSets member rest f g := by
  refine ⟨fun hw hm => ?_, stays⟩
  obtain ⟨hdone, hwaits⟩ := settleFence_spec (rest f)
  rw [leaves hw hm]
  refine ⟨hwaits, fun hs hf he => ?_⟩
  rw [hdone ⟨hs, hf, he⟩, faulted]

theorem dropSlot_leaves (i : SlotId) (f : FenceRecord) : LeavesWaitSets (fun f => i ∈ f.waitSlots)
    (fun f => { f with waitSlots := without i f.waitSlots }) f (dropSlot i f) :=
  leavesWaitSets_of rfl (dropSlot_spec i f).1 (dropSlot_spec i f).2

theorem dropFence_leaves (k : FenceId) (f : FenceRecord) : LeavesWaitSets (fun f => k ∈ f.waitFences)
    (fun f => { f with waitFences := without k f.waitFences }) f (dropFence k f) :=
  leavesWaitSets_of rfl (dropFence_spec k f).1 (dropFence_spec k f).2

/-! ## The data of a READ's response (R14) -/

/-- The requested lanes of a request within its line are `length` lanes from the offset on. -/
theorem requestedLanes_eq {o : Lane} {n : Nat} (h : o.val + n ≤ 64) :
    (List.finRange 64).filter (fun l => (laneRange o n)[l]) =
      (List.finRange n).map (fun m => (⟨o.val + m.val, by omega⟩ : Lane)) := by
  refine List.Pairwise.eq_of_mem_iff (r := (· < ·)) ((List.pairwise_lt_finRange 64).filter _)
    (List.pairwise_map.2 ((List.pairwise_lt_finRange n).imp fun hlt => ?_)) fun l => ?_
  · exact Fin.mk_lt_mk.2 (Nat.add_lt_add_left hlt _)
  · have hlane : (laneRange o n)[l] = true ↔ o.val ≤ l.val ∧ l.val < o.val + n := by
      rw [laneRange, get_tabulate, Bool.and_eq_true, decide_eq_true_eq, decide_eq_true_eq]
    rw [List.mem_filter, List.mem_map, hlane]
    refine ⟨fun ⟨_, hle, hlt⟩ => ⟨⟨l.val - o.val, by omega⟩, List.mem_finRange _, Fin.ext (by simp only; omega)⟩, ?_⟩
    rintro ⟨m, -, rfl⟩
    exact ⟨List.mem_finRange _, by simp only; omega, by simp only; omega⟩

theorem requestedBytes_eq {x : Slot} (h : x.offset.val + x.length ≤ 64) :
    requestedBytes x = (List.finRange x.length).map (fun m => x.data[x.offset.val + m.val]) := by
  rw [requestedBytes, requestedLanes_eq h, List.map_map]
  rfl

/-! ## The delivery of a slot's response (R14, R16, R17, R42) -/

/-- A delivered slot with no memory tag leaves. -/
theorem departed_slot_free {s : State} (rest : List Ref) {i : SlotId} (h : s.slots[i].memTag = none) :
    departed s rest (.slot i) = freeSlot (consumed s rest (.slot i)) i := by
  simp only [departed, h, Option.isNone_none, if_true]

/-- A delivered slot with a memory tag stays. -/
theorem departed_slot_held {s : State} (rest : List Ref) {i : SlotId} (h : s.slots[i].memTag ≠ none) :
    departed s rest (.slot i) = consumed s rest (.slot i) := by
  simp only [departed, Option.isNone_iff_eq_none, h, if_false]

theorem consumed_slot_fields (s : State) (rest : List Ref) (i : SlotId) : consumed s rest (.slot i) =
    { s with
      responses := rest, taken := responseOf s (.slot i)
      tagTable := put s.tagTable s.slots[i].initiator (put s.tagTable[s.slots[i].initiator] s.slots[i].tag false)
      slots := put s.slots i { s.slots[i] with delivered := true } } := rfl

theorem freeSlot_fields (s : State) (i : SlotId) : freeSlot s i =
    { s with slots := (freeSlot s i).slots, arrival := (freeSlot s i).arrival, fences := (freeSlot s i).fences } := rfl

theorem departed_slot_fields (s : State) (rest : List Ref) (i : SlotId) : ∃ sl ar fe, departed s rest (.slot i) =
    { s with
      responses := rest, taken := responseOf s (.slot i)
      tagTable := put s.tagTable s.slots[i].initiator (put s.tagTable[s.slots[i].initiator] s.slots[i].tag false)
      slots := sl, arrival := ar, fences := fe } := by
  by_cases h : s.slots[i].memTag = none
  · rw [departed_slot_free rest h, freeSlot_fields, consumed_slot_fields]; exact ⟨_, _, _, rfl⟩
  · rw [departed_slot_held rest h, consumed_slot_fields]; exact ⟨_, _, _, rfl⟩

theorem departed_slot_slots (s : State) (rest : List Ref) (i j : SlotId) : (departed s rest (.slot i)).slots[j] =
    if j = i then { s.slots[i] with
      delivered := true, state := if s.slots[i].memTag = none then .free else s.slots[i].state } else s.slots[j] := by
  by_cases h : s.slots[i].memTag = none
  · rw [departed_slot_free rest h, (freeSlot_spec _ i).1, get_put, if_pos h]
    split
    · rw [consumed_slot_slots, if_pos rfl]
    · next hj => rw [consumed_slot_slots, if_neg hj]
  · rw [departed_slot_held rest h, consumed_slot_slots, if_neg h]

/-- A delivery makes no slot DONE. -/
theorem slot_not_mem_readyRefs {s u : State} (h : ∀ j : SlotId, u.slots[j].state = .done → s.slots[j].state = .done)
    (j : SlotId) : Ref.slot j ∉ readyRefs s u := fun hm => by
  obtain ⟨-, hd, hnew⟩ := slot_mem_readyRefs.1 hm
  exact hnew (h j hd)

theorem departed_slot_done {s : State} {rest : List Ref} {i j : SlotId}
    (h : (departed s rest (.slot i)).slots[j].state = .done) : s.slots[j].state = .done := by
  rw [departed_slot_slots] at h
  split at h
  · next hj =>
    rw [hj]
    dsimp only at h
    split at h
    · cases h
    · exact h
  · exact h

/-- The response of a DONE slot (R14), as a statement names its fields. -/
theorem slotResponse_spec (x : Slot) (st : Status) :
    (slotResponse x st).initiator = x.initiator ∧ (slotResponse x st).tag = x.tag ∧
    (slotResponse x st).kind = (match x.kind with | .read => .read | .write => .write) ∧
    (slotResponse x st).status = st ∧
    ((x.kind = .read ∧ (st = .ok ∨ st = .poisoned)) → x.offset.val + x.length ≤ 64 →
      ∃ bytes, (slotResponse x st).data = some bytes ∧ bytes.length = x.length ∧
        ∀ (n : Nat) (h : x.offset.val + n < 64), n < x.length → bytes[n]? = some x.data[x.offset.val + n]) ∧
    (¬ (x.kind = .read ∧ (st = .ok ∨ st = .poisoned)) → (slotResponse x st).data = none) := by
  refine ⟨rfl, rfl, ?_, rfl, fun ⟨hk, hst⟩ hfit => ⟨requestedBytes x, ?_, ?_, fun n _ hn => ?_⟩, fun hno => ?_⟩
  · show kindOfAccess x.kind = _
    cases x.kind <;> rfl
  · rcases hst with rfl | rfl <;> simp only [slotResponse, slotResponseData, hk]
  · rw [requestedBytes_eq hfit, List.length_map, List.length_finRange]
  · rw [requestedBytes_eq hfit, List.getElem?_map, List.getElem?_eq_getElem (by rwa [List.length_finRange]),
      List.getElem_finRange]
    rfl
  · unfold slotResponse slotResponseData
    dsimp only
    split
    · next hk => exact absurd ⟨hk, .inl rfl⟩ hno
    · next hk => exact absurd ⟨hk, .inr rfl⟩ hno
    · rfl

/-- Settles O23: the slot is marked delivered, or leaves with its last tag, and only fences can complete on that
account. -/
theorem slotResponseDelivered : Obligations.SlotResponseDelivered := by
  intro s i rest st hr hs hst x
  have hexec : exec .delivery s = .next (conclude s (departed s rest (.slot i))) := by
    rw [exec_released hr, effect, deliver_eq hs]
  have hresponse : responseOf s (.slot i) = some (slotResponse x st) := by
    simp only [responseOf, hst, Option.map_some]
    rfl
  have hnoslot := slot_not_mem_readyRefs (fun j => departed_slot_done (s := s) (rest := rest) (i := i) (j := j))
  have hslots (j : SlotId) := departed_slot_slots s rest i j
  obtain ⟨sl, ar, fe, hu⟩ := departed_slot_fields s rest i
  refine ⟨_, readyRefs s (departed s rest (.slot i)), hexec, ⟨_, ?_, ?_, slotResponse_spec x st⟩, ?_, fun j hj => ?_,
    fun hm => ⟨?_, ?_, fun k => ?_⟩, fun hm => ⟨?_, ?_, ?_⟩, ?_, fun ref hm => ?_, fun k hk hc hnew => ?_, ?_, ?_, ?_⟩
  · rw [shownResponse, hr, hs]
    exact hresponse
  · rw [← hresponse]
    simp only [conclude_frame, hu]
  · simp only [conclude_frame, hu]; rfl
  · simp only [conclude_frame]
    rw [hslots, if_neg hj]
  · simp only [conclude_frame]
    rw [hslots, if_pos rfl, if_pos hm]
  · simp only [conclude_frame]
    rw [departed_slot_free rest hm, (freeSlot_spec _ i).2.1]
    rfl
  · simp only [conclude_frame]
    rw [departed_slot_free rest hm, (freeSlot_spec _ i).2.2 k]
    exact dropSlot_leaves i s.fences[k]
  · simp only [conclude_frame]
    rw [hslots, if_pos rfl, if_neg hm]
  · simp only [conclude_frame]
    rw [departed_slot_held rest hm]
    rfl
  · simp only [conclude_frame]
    rw [departed_slot_held rest hm]
    rfl
  · rw [conclude_responses, hu]
  · simp only [conclude_frame]
    cases ref with
    | slot j => exact absurd hm (hnoslot j)
    | fence k =>
      obtain ⟨-, hc, hnew⟩ := fence_mem_readyRefs.1 hm
      exact ⟨k, rfl, hc, hnew⟩
    | refusal k => exact absurd hm refusal_not_mem_readyRefs
  · simp only [conclude_frame] at hc
    exact fence_mem_readyRefs.2 ⟨by rw [hu]; exact hk, hc, hnew⟩
  · exact conclude_partFollows (by rw [hu]) (by rw [hu]) (by rw [hu]) (by rw [hu]) (by rw [hu])
  · obtain ⟨p, q, b, c, r, hc⟩ := conclude_fields s (departed s rest (.slot i))
    rw [hc, hu]
  · obtain ⟨p, q, b, c, r, hc⟩ := conclude_fields s (departed s rest (.slot i))
    rw [hc, hu]

/-! ## The delivery of a fence's or a refusal's response (R13, R16, R17, R151) -/

theorem departed_refusal_fields (s : State) (rest : List Ref) (k : RefusalId) : departed s rest (.refusal k) =
    { s with
      responses := rest, taken := responseOf s (.refusal k), refusals := put s.refusals k none } := rfl

theorem departed_fence_fields (s : State) (rest : List Ref) (k : FenceId) : ∃ fe, departed s rest (.fence k) =
    { s with
      responses := rest, taken := responseOf s (.fence k)
      tagTable := put s.tagTable s.fences[k].initiator (put s.tagTable[s.fences[k].initiator] s.fences[k].tag false)
      fences := fe, fenceOrder := without k s.fenceOrder } := ⟨_, rfl⟩

theorem departed_fence_fences (s : State) (rest : List Ref) (k j : FenceId) :
    (departed s rest (.fence k)).fences[j] = if j = k then FenceRecord.free else dropFence k s.fences[j] := by
  have hmap : (departed s rest (.fence k)).fences[j] = dropFence k (consumed s rest (.fence k)).fences[j] :=
    get_mapFences _ _ j j.isLt
  rw [hmap, consumed_fence_fences]
  split
  · rfl
  · rfl

/-- Where no slot is newly DONE, the fences newly COMPLETED are all that becomes ready. -/
theorem readyRefs_of_slots {s u : State} (h : u.slots = s.slots) :
    readyRefs s u = (u.fenceOrder.filter (newlyCompleted s u)).map .fence := by
  have hnone : u.arrival.filter (newlyDone s u) = [] := List.filter_eq_nil_iff.2 fun i _ => by
    simp only [newlyDone, h, Bool.and_eq_true, beq_iff_eq, bne_iff_ne]
    exact fun hd => hd.2 hd.1
  rw [readyRefs, hnone, List.map_nil, List.nil_append]

theorem readyRefs_of_fences {s u : State} (hs : u.slots = s.slots) (hf : u.fences = s.fences) : readyRefs s u = [] := by
  have hnone : u.fenceOrder.filter (newlyCompleted s u) = [] := List.filter_eq_nil_iff.2 fun k _ => by
    simp only [newlyCompleted, hf, Bool.and_eq_true, beq_iff_eq, bne_iff_ne]
    exact fun hc => hc.2 hc.1
  rw [readyRefs_of_slots hs, hnone, List.map_nil]

theorem deliver_refusal {s : State} {k : RefusalId} {rest : List Ref} {x : Refused}
    (hs : s.responses = .refusal k :: rest) (hx : s.refusals[k] = some x) :
    PartFollows s (deliver s) s.balances ∧
    (deliver s).causes =
      { s.causes with drained := (deliver s).causes.drained, restarted := (deliver s).causes.restarted } ∧
    deliver s = { s with
      responses := rest, refusals := put s.refusals k none
      taken := some { initiator := x.initiator, tag := x.tag, kind := x.kind, status := x.status, data := none }
      part := (deliver s).part, pointer := (deliver s).pointer, balances := (deliver s).balances
      causes := (deliver s).causes } := by
  have hresponse : responseOf s (.refusal k) =
      some { initiator := x.initiator, tag := x.tag, kind := x.kind, status := x.status, data := none } := by
    simp only [responseOf, hx, Option.map_some]
  have hready : readyRefs s (departed s rest (.refusal k)) = [] := readyRefs_of_fences rfl rfl
  rw [deliver_eq hs]
  obtain ⟨p, q, b, c, r, hc⟩ := conclude_fields s (departed s rest (.refusal k))
  rw [hready, List.append_nil, departed_refusal_fields, hresponse] at hc
  refine ⟨conclude_partFollows rfl rfl rfl rfl rfl, ?_, ?_⟩
  · rw [departed_refusal_fields, hresponse, hc]
  · rw [departed_refusal_fields, hresponse, hc]

theorem deliver_fence {s : State} {k : FenceId} {rest : List Ref} {st : Status} (hs : s.responses = .fence k :: rest)
    (hst : s.fences[k].status = some st) :
    (deliver s).taken = some
      { initiator := s.fences[k].initiator, tag := s.fences[k].tag, kind := .fence, status := st, data := none } ∧
    (deliver s).tagTable =
      put s.tagTable s.fences[k].initiator (put s.tagTable[s.fences[k].initiator] s.fences[k].tag false) ∧
    (deliver s).fences[k].state = .free ∧ (deliver s).fenceOrder = without k s.fenceOrder ∧
    (∀ j : FenceId, j ≠ k → LeavesWaitSets (fun f => k ∈ f.waitFences)
      (fun f => { f with waitFences := without k f.waitFences }) s.fences[j] (deliver s).fences[j]) ∧
    (deliver s).responses = rest ++ ((without k s.fenceOrder).filter (fun j =>
      (deliver s).fences[j].state == .completed && s.fences[j].state != .completed)).map .fence ∧
    PartFollows s (deliver s) s.balances ∧
    (deliver s).causes =
      { s.causes with drained := (deliver s).causes.drained, restarted := (deliver s).causes.restarted } ∧
    deliver s = { s with
      taken := (deliver s).taken, responses := (deliver s).responses, tagTable := (deliver s).tagTable
      fences := (deliver s).fences, fenceOrder := (deliver s).fenceOrder, part := (deliver s).part
      pointer := (deliver s).pointer, balances := (deliver s).balances, causes := (deliver s).causes } := by
  have hresponse : responseOf s (.fence k) = some
      { initiator := s.fences[k].initiator, tag := s.fences[k].tag, kind := .fence, status := st, data := none } := by
    simp only [responseOf, hst, Option.map_some]
  have hfences (j : FenceId) := departed_fence_fences s rest k j
  obtain ⟨fe, hu⟩ := departed_fence_fields s rest k
  have hslots : (departed s rest (.fence k)).slots = s.slots := by rw [hu]
  obtain ⟨p, q, b, c, r, hc⟩ := conclude_fields s (departed s rest (.fence k))
  rw [deliver_eq hs]
  refine ⟨?_, ?_, ?_, ?_, fun j hj => ?_, ?_,
    conclude_partFollows (by rw [hu]) (by rw [hu]) (by rw [hu]) (by rw [hu]) (by rw [hu]), ?_, ?_⟩
  · rw [← hresponse]
    simp only [conclude_frame, hu]
  · simp only [conclude_frame, hu]
  · simp only [conclude_frame]
    rw [hfences, if_pos rfl]
    rfl
  · simp only [conclude_frame, hu]
  · simp only [conclude_frame]
    rw [hfences, if_neg hj]
    exact dropFence_leaves k s.fences[j]
  · rw [conclude_responses, readyRefs_of_slots hslots]
    simp only [conclude_frame]
    rfl
  · rw [hc, hu]
  · rw [hc, hu]

/-- Settles O24: the front reference by its kind. -/
theorem fenceOrRefusalDelivered : Obligations.FenceOrRefusalDelivered := by
  intro s hr
  have hexec : exec .delivery s = .next (deliver s) := exec_released hr
  rw [hexec]
  refine ⟨fun hs => by simp only [deliver, hs], fun k rest x hs hx => ⟨_, rfl, deliver_refusal hs hx⟩,
    fun k rest st hs hst => ⟨_, rfl, deliver_fence hs hst⟩⟩

/-! ## What setting effective classes counts (R71) -/

/-- A slot of class `k` whose effective class is its own takes one above it. -/
def promotes (slots : Vector Slot 48) (k : ClassId) (p : SlotId × ClassId) : Bool :=
  slots[p.1].cls == k && slots[p.1].effCls == some k && decide (k < p.2)

theorem setEffective_fields (s : State) (p : SlotId × ClassId) :
    ∃ sl ct, setEffective s p = { s with slots := sl, counters := { s.counters with perClass := ct } } := by
  unfold setEffective
  dsimp only
  split <;> exact ⟨_, _, rfl⟩

theorem foldl_setEffective_fields (es : List (SlotId × ClassId)) (s : State) :
    ∃ sl ct, es.foldl setEffective s = { s with slots := sl, counters := { s.counters with perClass := ct } } := by
  induction es generalizing s with
  | nil => exact ⟨_, _, rfl⟩
  | cons p es ih =>
    obtain ⟨sl, ct, h⟩ := setEffective_fields s p
    rw [List.foldl_cons, h]
    exact ih _

theorem recompute_fields (s : State) (a : LineAddr) :
    ∃ sl ct, recompute s a = { s with slots := sl, counters := { s.counters with perClass := ct } } :=
  foldl_setEffective_fields _ s

theorem setEffective_perClass (s : State) (p : SlotId × ClassId) (k : ClassId) :
    (setEffective s p).counters.perClass[k] = { s.counters.perClass[k] with
      promotions := satAdd s.counters.perClass[k].promotions (if promotes s.slots k p then 1 else 0) } := by
  have hpromotes : promotes s.slots k p = true ↔ s.slots[p.1].cls = k ∧
      (s.slots[p.1].effCls == some s.slots[p.1].cls && decide (s.slots[p.1].cls < p.2)) = true := by
    simp only [promotes, Bool.and_eq_true, beq_iff_eq, decide_eq_true_eq, and_assoc]
    exact and_congr_right fun h => by rw [h]
  have hcounters : (setEffective s p).counters.perClass =
      if (s.slots[p.1].effCls == some s.slots[p.1].cls && decide (s.slots[p.1].cls < p.2)) = true then
        put s.counters.perClass s.slots[p.1].cls { s.counters.perClass[s.slots[p.1].cls] with
          promotions := satAdd s.counters.perClass[s.slots[p.1].cls].promotions 1 }
      else s.counters.perClass := by
    unfold setEffective
    dsimp only
    split <;> rfl
  rw [hcounters]
  split
  · next hrise =>
    rw [get_put]
    split
    · next hk => rw [if_pos (hpromotes.2 ⟨hk.symm, hrise⟩), hk]
    · next hk => rw [if_neg fun h => hk (hpromotes.1 h).1.symm, satAdd_zero]
  · next hrise => rw [if_neg fun h => hrise (hpromotes.1 h).2, satAdd_zero]

/-- Setting classes reaches no counter of a class but PROMOTIONS. -/
theorem foldl_setEffective_perClass (es : List (SlotId × ClassId)) (s : State) (k : ClassId) :
    (es.foldl setEffective s).counters.perClass[k] = { s.counters.perClass[k] with
      promotions := (es.foldl setEffective s).counters.perClass[k].promotions } := by
  induction es generalizing s with
  | nil => rfl
  | cons p es ih => rw [List.foldl_cons, ih, setEffective_perClass]

/-- Where no slot stands twice, PROMOTIONS rises by the pairs that promote. -/
theorem foldl_setEffective_promotions {es : List (SlotId × ClassId)} (h : (es.map (·.1)).Nodup) (s : State)
    (k : ClassId) : (es.foldl setEffective s).counters.perClass[k].promotions =
      satAdd s.counters.perClass[k].promotions (es.countP (promotes s.slots k)) := by
  induction es generalizing s with
  | nil => exact (satAdd_zero _).symm
  | cons p es ih =>
    obtain ⟨hnot, hnd⟩ := List.nodup_cons.1 (List.map_cons ▸ h)
    have hlater : es.countP (promotes (setEffective s p).slots k) = es.countP (promotes s.slots k) :=
      List.countP_congr fun q hq => by
        have hne : q.1 ≠ p.1 := fun he => hnot (he ▸ List.mem_map_of_mem hq)
        rw [promotes, promotes, setEffective_slots, if_neg hne]
    rw [List.foldl_cons, ih hnd, hlater, setEffective_perClass, satAdd_satAdd, List.countP_cons, Nat.add_comm]

/-! ## The acceptance of a READ or WRITE, field by field (R8, R37, R58, R64, R68, R71) -/

theorem acceptAccess_eq (s : State) (a : AccessReq) (w : WindowIndex) (i : SlotId) : acceptAccess s a w i =
    setAnswer (countAccepted (judgeStrict (accepted s a w i) a.line) (requestClass s a w)) (some .accept) := rfl

theorem joinLine_fields (s : State) (a : LineAddr) (i : SlotId) : ∃ ls, joinLine s a i = { s with lines := ls } := by
  unfold joinLine
  split <;> exact ⟨_, rfl⟩

theorem judgeStrict_fields (s : State) (a : LineAddr) : ∃ en, judgeStrict s a = { s with entries := en } := by
  unfold judgeStrict
  split
  · split <;> exact ⟨_, rfl⟩
  · exact ⟨_, rfl⟩

theorem acceptAccess_fields (s : State) (a : AccessReq) (w : WindowIndex) (i : SlotId) :
    ∃ tt sl qs ar ln en ct, acceptAccess s a w i = { s with
      tagTable := tt, slots := sl, queues := qs, arrival := ar, lines := ln, entries := en
      counters := { s.counters with perClass := ct }, answer := some .accept } := by
  obtain ⟨ln, hjoin⟩ := joinLine_fields
    (enqueue (setSlot (markTag s a.initiator a.tag) i (acceptedSlot s a w)) i (requestClass s a w)) a.line i
  obtain ⟨sl, ct, hclasses⟩ := recompute_fields (entered s a w i) a.line
  obtain ⟨en, hstrict⟩ := judgeStrict_fields (accepted s a w i) a.line
  rw [acceptAccess_eq, hstrict, accepted, hclasses, entered, hjoin]
  exact ⟨_, _, _, _, _, _, _, rfl⟩

/-- The pairs of the line's slots: the new slot stands last, with its own class. -/
theorem entered_pairs (s : State) (a : AccessReq) (w : WindowIndex) (i : SlotId) : ∃ es,
    effectiveClasses (entered s a w i).slots (lineList (entered s a w i) a.line) = es ++ [(i, requestClass s a w)] ∧
    es.map (·.1) = lineList s a.line := by
  have hlist := (entered_findLine s a w i).1
  obtain ⟨es, hes⟩ := effectiveClasses_append (entered s a w i).slots (lineList s a.line) [i]
  have hlast : effectiveClasses (entered s a w i).slots [i] = [(i, requestClass s a w)] := by
    rw [effectiveClasses, effectiveClasses, List.foldl_nil, entered_slots, get_put_self]
    rfl
  rw [hlast] at hes
  refine ⟨es, hlist ▸ hes, List.append_cancel_right (bs := [i]) ?_⟩
  have hfst := effectiveClasses_fst (entered s a w i).slots (lineList s a.line ++ [i])
  rwa [hes, List.map_append] at hfst

theorem accepted_effCls_self (s : State) (a : AccessReq) (w : WindowIndex) (i : SlotId) :
    (accepted s a w i).slots[i].effCls = some (requestClass s a w) := by
  obtain ⟨es, hes, -⟩ := entered_pairs s a w i
  rw [accepted, recompute, hes]
  exact foldl_setEffective_mem (p := (i, requestClass s a w)) (younger := []) List.not_mem_nil _

theorem entered_lineList_nodup {s : State} {a : AccessReq} {w : WindowIndex} {i : SlotId}
    (hnd : (lineList s a.line).Nodup) (hi : i ∉ lineList s a.line) : (lineList (entered s a w i) a.line).Nodup := by
  rw [(entered_findLine s a w i).1]
  exact List.nodup_append.2 ⟨hnd, List.nodup_singleton i, fun x hx y hy => by
    rw [List.mem_singleton.1 hy]
    exact fun he => hi (he ▸ hx)⟩

theorem entered_counters (s : State) (a : AccessReq) (w : WindowIndex) (i : SlotId) :
    (entered s a w i).counters = s.counters := by
  simp [entered]

/-- PROMOTIONS rises by the slots of the line that rise; the new slot does not. -/
theorem accepted_promotions {s : State} {a : AccessReq} {w : WindowIndex} {i : SlotId}
    (hnd : (lineList s a.line).Nodup) (hi : i ∉ lineList s a.line) (c : ClassId) :
    (accepted s a w i).counters.perClass[c].promotions = satAdd s.counters.perClass[c].promotions
      ((lineList s a.line).countP (rises s (accepted s a w i) c)) := by
  have hnd' := entered_lineList_nodup (w := w) hnd hi
  obtain ⟨es, hes, hfst⟩ := entered_pairs s a w i
  have hnew : promotes (entered s a w i).slots c (i, requestClass s a w) = false := by
    simp only [promotes, entered_slots, get_put_self, acceptedSlot]
    by_cases hc : requestClass s a w = c
    · rw [hc, decide_eq_false (lt_irrefl c), Bool.and_false]
    · rw [beq_eq_false_iff_ne.2 hc, Bool.false_and, Bool.false_and]
  have hold (p) (hp : p ∈ es) :
      promotes (entered s a w i).slots c p = rises s (accepted s a w i) c p.1 := by
    have hne : p.1 ≠ i := fun he => hi (he ▸ hfst ▸ List.mem_map_of_mem hp)
    have heff : (accepted s a w i).slots[p.1].effCls = some p.2 :=
      recompute_effCls hnd' (by rw [hes]; exact List.mem_append_left _ hp)
    simp only [promotes, rises, heff, entered_slots, get_put_ne _ _ hne]
  have hcount : (es ++ [(i, requestClass s a w)]).countP (promotes (entered s a w i).slots c) =
      (lineList s a.line).countP (rises s (accepted s a w i) c) := by
    rw [List.countP_append, List.countP_singleton, if_neg (by rw [hnew]; exact Bool.false_ne_true), Nat.add_zero,
      ← hfst, List.countP_map]
    exact List.countP_congr fun p hp => by rw [hold p hp]; rfl
  rw [accepted, recompute, foldl_setEffective_promotions (by rwa [effectiveClasses_fst]), hes, hcount, entered_counters,
    accepted, recompute, hes]

theorem accepted_perClass (s : State) (a : AccessReq) (w : WindowIndex) (i : SlotId) (c : ClassId) :
    (accepted s a w i).counters.perClass[c] = { s.counters.perClass[c] with
      promotions := (accepted s a w i).counters.perClass[c].promotions } := by
  rw [accepted, recompute, foldl_setEffective_perClass, entered_counters]

theorem acceptAccess_perClass (s : State) (a : AccessReq) (w : WindowIndex) (i : SlotId) (c : ClassId) :
    (acceptAccess s a w i).counters.perClass[c] = { s.counters.perClass[c] with
      accepted := if c = requestClass s a w then satAdd s.counters.perClass[c].accepted 1
        else s.counters.perClass[c].accepted
      promotions := (accepted s a w i).counters.perClass[c].promotions } := by
  have hcounters : (acceptAccess s a w i).counters.perClass = put (accepted s a w i).counters.perClass
      (requestClass s a w) { (accepted s a w i).counters.perClass[requestClass s a w] with
        accepted := satAdd (accepted s a w i).counters.perClass[requestClass s a w].accepted 1 } := by
    rw [acceptAccess_eq, setAnswer_counters, countAccepted, countClass_counters]
    simp only [judgeStrict_frame]
  rw [hcounters, get_put]
  split
  · next hc => rw [hc, accepted_perClass]
  · rw [accepted_perClass]

theorem judgeStrict_entries (s : State) (a : LineAddr) (e : EntryId) : (judgeStrict s a).entries[e] =
    if mergeRef s a = some e ∧ (leadingReads s a).any (fun j => s.slots[j].forwarding == .strict) = true
    then withReason s.entries[e] .strictRead s.timeBase else s.entries[e] := by
  cases hd : mergeRef s a with
  | none =>
    have hstays : judgeStrict s a = s := by simp only [judgeStrict, hd]
    rw [hstays, if_neg fun h => nomatch h.1]
  | some d =>
    by_cases hany : (leadingReads s a).any (fun j => s.slots[j].forwarding == .strict) = true
    · have htakes : judgeStrict s a = addReason s d .strictRead := by simp only [judgeStrict, hd, hany, if_true]
      rw [htakes, addReason_entries, get_put]
      by_cases he : e = d
      · rw [if_pos he, if_pos ⟨by rw [he], hany⟩, he]
      · rw [if_neg he, if_neg fun h => he (Option.some.inj h.1).symm]
    · have hstays : judgeStrict s a = s := by simp only [judgeStrict, hd, hany, if_false, Bool.false_eq_true]
      rw [hstays, if_neg fun h => hany h.2]

theorem leadingReads_congr {s t : State} (slots : t.slots = s.slots) (lines : t.lines = s.lines) (a : LineAddr) :
    leadingReads t a = leadingReads s a := by
  rw [leadingReads, leadingReads, lineList_congr lines, slots]

/-- Settles O19: the slot filled from the request and the active set, entered, and its line's classes computed again. -/
theorem accessAccepted : Obligations.AccessAccepted := by
  intro s r a w i hr hp hpass hroom hi hlow k attrs
  have hexec : exec (.presentation r) s = .next (acceptAccess s a w i) := by
    rw [exec_released hr, effect, intake_access hp hpass, takeAccess_lowest hroom hi hlow]
  have hu := acceptAccess_untouched s a w i
  have hlines : (accepted s a w i).lines = (entered s a w i).lines := by simp only [accepted, recompute_frame]
  have hfind (b : LineAddr) : findLine (acceptAccess s a w i) b = findLine (entered s a w i) b := by
    rw [findLine, findLine, hu.lines, hlines]
  obtain ⟨hlist, hmerge, hother⟩ := entered_findLine s a w i
  have hmergeRef : mergeRef (accepted s a w i) a.line = mergeRef s a.line := by
    rw [← hmerge, mergeRef, mergeRef, findLine, findLine, hlines]
  refine ⟨_, hexec, rfl, ?_, ?_, fun hnd hnot => ⟨?_, fun c => ?_⟩, fun j hj => ?_, fun j hj hoff => ?_, ?_, ?_, ?_, ?_,
    fun b hb => ?_, fun e => ?_, ?_, fun c => ⟨?_, fun hc => ?_⟩, ?_, ?_⟩
  · rw [hu.tagTable, accepted_tagTable]
  · rw [hu.slots, accepted_slots_self, accepted_effCls_self, acceptedSlot, writeModeOf_spec, forwardingOf_spec,
      faultPolicyOf_spec]
  · exact (recompute_effectiveOn (entered_lineList_nodup hnd hnot)).congr (lineList_congr hu.lines _) fun j _ => by
      rw [hu.slots, accepted]; exact ⟨rfl, rfl, rfl⟩
  · have hrises : rises s (acceptAccess s a w i) c = rises s (accepted s a w i) c := by
      funext x
      simp only [rises, hu.slots]
    rw [acceptAccess_perClass, accepted_promotions hnd hnot, hrises]
  · rw [hu.slots, ← accepted_slots_ne s a w hj]
  · rw [hu.slots, accepted_slots_off s a w hj hoff]
  · rw [hu.queues, accepted_queues]
  · rw [hu.arrival, accepted_arrival]
  · rw [lineList, hfind]; exact hlist
  · rw [mergeRef, hfind]; exact hmerge
  · rw [hfind, hother b hb]
  · have hentries : (acceptAccess s a w i).entries = (judgeStrict (accepted s a w i) a.line).entries := by
      simp only [acceptAccess_eq, setAnswer_entries, countAccepted_frame]
    have htime : (accepted s a w i).timeBase = s.timeBase := by simp [accepted, entered]
    rw [hentries, judgeStrict_entries, (accepted_frame s a w i).1, htime, hmergeRef,
      leadingReads_congr hu.slots hu.lines, hu.slots]
  · rw [acceptAccess_perClass, if_pos rfl]
  · rw [acceptAccess_perClass]
  · rw [acceptAccess_perClass, if_neg hc]
  · obtain ⟨tt, sl, qs, ar, ln, en, ct, h⟩ := acceptAccess_fields s a w i
    rw [h]
  · obtain ⟨tt, sl, qs, ar, ln, en, ct, h⟩ := acceptAccess_fields s a w i
    rw [h]

end Sys2Proof.Machine

/-! PROOFS. Windows and classification: the lookup and the class of a request, and what a slot takes with it at
acceptance. -/

namespace Sys2Proof.Machine

/-! ## The class of a request (R30, R31), from the item values

Where no check of R181 fails, an item that holds a group or a class is the number that it is read as. -/

theorem groupOfItem_val {w : Word} (h : ¬ 3 < w.toNat) : (groupOfItem w : Nat) = w.toNat :=
  Nat.mod_eq_of_lt (by omega)

theorem classOfItem_val {w : Word} (h : ¬ 5 < w.toNat) : (classOfItem w : Nat) = w.toNat :=
  Nat.mod_eq_of_lt (by omega)

theorem policyClass_map {x : WindowAttrs} (h : x.policy = 0) (k : ClassId) : policyClass x k = k := by
  simp [policyClass, h]

theorem policyClass_fixed {x : WindowAttrs} (h : x.policy = 1) (k : ClassId) :
    policyClass x k = classOfItem x.classValue := by
  simp [policyClass, h]

theorem policyClass_floor {x : WindowAttrs} (h : x.policy = 2) (k : ClassId) :
    policyClass x k = max k (classOfItem x.classValue) := by
  simp [policyClass, h]

/-- The class value of every window and of the default window is a class. -/
theorem ConfigLaw.classValue {s : State} (h : ConfigLaw s) (w : WindowIndex) :
    ¬ 5 < (windowAttrs s.active w).classValue.toNat := by
  obtain ⟨hitems, -, -⟩ := h
  cases w with
  | window v => exact hitems (.windowAttr v .classValue)
  | dflt => exact hitems (.dfltAttr .classValue)

theorem ConfigLaw.initiatorGroup_val {s : State} (h : ConfigLaw s) (i : InitiatorId) :
    (initiatorGroup s.active i : Nat) = s.active.initiators[i].group.toNat :=
  groupOfItem_val (h.1 (.initiatorGroup i))

theorem ConfigLaw.mappedClass_val {s : State} (h : ConfigLaw s) (g : GroupId) (u : Urgency) :
    (mappedClass s.active g u : Nat) = s.active.classMap[g][u].toNat :=
  classOfItem_val (h.1 (.classMap g u))

/-- Settles O21: the lookup is `CoveredBy` and `NotCovered`; each class policy by its own equation. -/
theorem lookupAndClass : Obligations.LookupAndClass := by
  refine ⟨fun c a => ⟨fun w => coveredBy_iff.symm, coveredBy_iff.symm, notCovered_iff.symm⟩, fun s a w hlaw => ?_⟩
  intro g
  have hmapped := hlaw.mappedClass_val g a.urgency
  have hvalue := classOfItem_val (hlaw.classValue w)
  refine ⟨hlaw.initiatorGroup_val a.initiator, fun hmap => ?_, fun hfixed => ?_, fun hfloor => ?_⟩
  · rw [requestClass, policyClass_map hmap, hmapped]
  · rw [requestClass, policyClass_fixed hfixed, hvalue]
  · rw [requestClass, policyClass_floor hfloor, Fin.coe_max, hmapped, hvalue]

/-! ## What a live slot took with it at acceptance stays (R32, R36)

Every event but an acceptance and a hard reset leaves the captured fields of every slot, FREE ones included. So said, it
is closed under composition, and an operation is shown to meet it by what it writes into a slot. -/

theorem SameCapture.refl (x : Slot) : SameCapture x x :=
  ⟨rfl, rfl, rfl, rfl, rfl, rfl, rfl, rfl, rfl, rfl, rfl, rfl, rfl, rfl⟩

theorem SameCapture.trans {x y z : Slot} (h : SameCapture x y) (h' : SameCapture y z) : SameCapture x z := by
  simp only [SameCapture] at h h' ⊢
  simp only [h, h', and_self]

/-- Every slot keeps its captured fields. -/
def CapturesStay (s t : State) : Prop := ∀ i : SlotId, SameCapture s.slots[i] t.slots[i]

namespace CapturesStay

/-- What changes no slot. -/
theorem of_slots {s t : State} (h : t.slots = s.slots) : CapturesStay s t := fun i => by
  rw [h]; exact .refl _

theorem refl (s : State) : CapturesStay s s := of_slots rfl

theorem trans {s t u : State} (h : CapturesStay s t) (h' : CapturesStay t u) : CapturesStay s u :=
  fun i => (h i).trans (h' i)

/-- An operation that leaves the slots follows. -/
theorem andThen {s t u : State} (h : CapturesStay s t) (hu : u.slots = t.slots) : CapturesStay s u :=
  h.trans (of_slots hu)

/-- What writes one slot and keeps its captured fields. -/
theorem of_put {s t : State} {i : SlotId} {y : Slot} (slots : t.slots = put s.slots i y)
    (h : SameCapture s.slots[i] y) : CapturesStay s t := fun j => by
  rw [slots, get_put]
  split
  · next hj => rw [hj]; exact h
  · exact .refl _

/-- A pass over the records, each step of which keeps the captured fields. -/
theorem forEach {n : Nat} {f : State → Fin n → State} (step : ∀ t i, CapturesStay t (f t i)) (s : State) :
    CapturesStay s (Machine.forEach s f) :=
  forEach_keeps (P := CapturesStay s) (fun t i h => h.trans (step t i)) (refl s)

end CapturesStay

theorem setSlot_capturesStay {s : State} {i : SlotId} {x : Slot} (h : SameCapture s.slots[i] x) :
    CapturesStay s (setSlot s i x) := .of_put rfl h

/-! ### Grants -/

theorem ungrouped_capturesStay (s : State) (i : SlotId) : CapturesStay s (ungrouped s i) := fun j => by
  rw [ungrouped_slots]; exact SameCapture.refl s.slots[j]

theorem issueForSlot_capturesStay (s : State) (i : SlotId) (k : OpKind) : CapturesStay s (issueForSlot s i k) := by
  obtain ⟨m, hslots, -⟩ := issueForSlot_ops s i k
  exact .of_put hslots (SameCapture.refl s.slots[i])

theorem doPlainRead_capturesStay (s : State) (i : SlotId) : CapturesStay s (doPlainRead s i) := by
  obtain ⟨m, hslots, -⟩ := doPlainRead_spec s i
  exact .of_put hslots (SameCapture.refl s.slots[i])

theorem doDirect_capturesStay (s : State) (i : SlotId) : CapturesStay s (doDirect s i) := by
  have hissue := issueForSlot_capturesStay s i (.maskedWrite s.slots[i].lanes)
  rcases doDirect_cases s i with h | h <;> rw [h]
  · exact hissue.trans (setSlot_capturesStay (SameCapture.refl _))
  · exact hissue.trans (setSlot_capturesStay (SameCapture.refl _))

theorem doForward_capturesStay (s : State) (i : SlotId) (e : EntryId) : CapturesStay s (doForward s i e) := by
  have hslots : (doForward s i e).slots = put s.slots i { s.slots[i] with
      data := keepLanes (requestedLanes s.slots[i]) s.entries[e].data, state := .done, status := some .ok } := by
    simp [doForward, finishOk, setSlot]
  exact .of_put hslots (SameCapture.refl s.slots[i])

theorem doOverlay_capturesStay (s : State) (i : SlotId) (e : EntryId) : CapturesStay s (doOverlay s i e) := by
  have hsnapshot (m : Option LaneMask) (d : LineData) :
      SameCapture s.slots[i] { s.slots[i] with snapshot := m, data := d } := SameCapture.refl s.slots[i]
  have hset := setSlot_capturesStay (hsnapshot (some s.entries[e].valid)
    (keepLanes s.entries[e].valid s.entries[e].data))
  exact (hset.trans (doPlainRead_capturesStay _ i)).andThen (by simp only [doOverlay, countOverlay_frame])

theorem doMerge_capturesStay (s : State) (i : SlotId) (e : EntryId) : CapturesStay s (doMerge s i e) :=
  .of_put (doMerge_slots s i e) (SameCapture.refl s.slots[i])

theorem doMergeWait_capturesStay (s : State) (i : SlotId) (e : EntryId) : CapturesStay s (doMergeWait s i e) := by
  have hslots : (doMergeWait s i e).slots = put s.slots i { s.slots[i] with state := .waitDrain } := by
    simp [doMergeWait, awaitDrain, setSlot]
  exact .of_put hslots (SameCapture.refl s.slots[i])

theorem doAllocate_capturesStay (s : State) (i : SlotId) (e : EntryId) : CapturesStay s (doAllocate s i e) := by
  have hslots : (doAllocate s i e).slots = put s.slots i (doneWith .ok s.slots[i]) := by
    simp only [doAllocate, drainCmdIfDraining_frame, doMerge_slots, setMergeRef_frame, setEntry_slots]
  exact .of_put hslots (SameCapture.refl s.slots[i])

theorem doAction_capturesStay (s : State) (i : SlotId) (a : Action) : CapturesStay s (doAction s i a) := by
  cases a with
  | forward e => exact doForward_capturesStay s i e
  | overlayRead e => exact doOverlay_capturesStay s i e
  | plainRead => exact doPlainRead_capturesStay s i
  | merge e => exact doMerge_capturesStay s i e
  | mergeWait e => exact doMergeWait_capturesStay s i e
  | allocate e => exact doAllocate_capturesStay s i e
  | direct => exact doDirect_capturesStay s i

theorem nextSlotGrant_capturesStay (s : State) : CapturesStay s (nextSlotGrant s) := by
  rcases nextSlotGrant_cases s with h | ⟨i, a, cls, rr, -, h⟩ <;> rw [h]
  · exact .refl s
  · exact ((ungrouped_capturesStay s i).trans (doAction_capturesStay _ i a)).andThen (by simp [grantSlot, ungrouped])

/-! ### The end of an op -/

theorem resolveSlot_capturesStay (s : State) (i : SlotId) (o : OpOutcome) : CapturesStay s (resolveSlot s i o) := by
  unfold resolveSlot
  split
  · refine (CapturesStay.of_slots (t := recordSlotLoss s i o) (by simp)).trans fun j => ?_
    rw [releaseTag_slots]
    split
    · next hj => rw [hj]; exact SameCapture.refl (recordSlotLoss s i o).slots[i]
    · exact .refl _
  · exact setSlot_capturesStay (SameCapture.refl s.slots[i])

theorem resolveSource_capturesStay (s : State) (src : Source) (o : OpOutcome) :
    CapturesStay s (resolveSource s src o) := by
  cases src with
  | slot i => exact resolveSlot_capturesStay s i o
  | entry e =>
    intro j
    rw [resolveSource, resolveEntry_slots]
    split
    · exact SameCapture.refl s.slots[j]
    · exact .refl _

theorem judgeTimeout_capturesStay (s : State) (τ : TagId) : CapturesStay s (judgeTimeout s τ) := by
  unfold judgeTimeout
  split
  · next op _ =>
    split
    · exact (resolveSource_capturesStay s op.source .timeout).andThen (by simp [timeOut])
    · exact .refl s
  · exact .refl s
  · exact .refl s

theorem judgeAllTimeouts_capturesStay (s : State) : CapturesStay s (judgeAllTimeouts s) :=
  .forEach judgeTimeout_capturesStay s

theorem complete_capturesStay (s : State) (tag : Nat) (o : OpOutcome) : CapturesStay s (complete s tag o) := by
  unfold complete
  split
  · unfold completeTag
    split
    · next op _ => exact (resolveSource_capturesStay s op.source o).andThen (by simp [endOp])
    · exact .of_slots (by simp)
    · exact .of_slots (by simp)
  · exact .of_slots (by simp)

/-! ### Time, COMMIT, RESTART and delivery -/

theorem advanceTime_capturesStay (s : State) : CapturesStay s (advanceTime s) := fun i => by
  have hslot : (advanceTime s).slots[i] = agedSlot s.slots[i] := by
    rw [advanceTime_spec]; exact get_tabulate _ i
  rw [hslot, agedSlot_eq]
  exact SameCapture.refl s.slots[i]

theorem timeStep_capturesStay (s : State) : CapturesStay s (timeStep s) :=
  (((advanceTime_capturesStay s).andThen
    (u := judgeAllAged (judgeAllUrgency (judgeRefill (advanceTime s)))) (by simp)).trans
    (judgeAllTimeouts_capturesStay _)).andThen (by simp [timeStep])

theorem commitStaged_capturesStay (s : State) : CapturesStay s (commitStaged s) :=
  ((CapturesStay.of_slots (t := judgePressure (judgeAllAged (judgeAllUrgency (clampBalances (adoptStaged s)))))
    (by simp)).trans (judgeAllTimeouts_capturesStay _)).andThen (by simp [commitStaged])

theorem commitPart_capturesStay (s : State) : CapturesStay s (commitPart s) := by
  have hvalidate : CapturesStay s (validateAndCommit s) := by
    unfold validateAndCommit
    split
    · exact .of_slots (by simp)
    · exact (commitStaged_capturesStay s).andThen (by simp)
  unfold commitPart
  split
  case h_1 => exact .of_slots (by simp)
  all_goals exact hvalidate

theorem restartSlot_sameCapture (x : Slot) : SameCapture x (restartSlot x) := by
  unfold restartSlot
  split <;> exact SameCapture.refl x

theorem restartPart_capturesStay (s : State) : CapturesStay s (restartPart s) := by
  have hrestarted : CapturesStay s (restarted s) := fun i => by
    rw [restarted_slots]; exact restartSlot_sameCapture _
  rcases restartPart_cases s with u | u
  · exact .of_slots u.slots
  · exact (hrestarted.andThen (u := conclude s (restarted s)) (by simp)).andThen u.slots

theorem departed_capturesStay (s : State) (rest : List Ref) (ref : Ref) : CapturesStay s (departed s rest ref) := by
  cases ref with
  | slot i =>
    intro j
    rw [departed_slot_slots]
    split
    · next hj => rw [hj]; exact SameCapture.refl s.slots[i]
    · exact .refl _
  | fence k => exact .of_slots (by simp [departed, consumed])
  | refusal k => exact .of_slots (by simp [departed, consumed])

theorem deliver_capturesStay (s : State) : CapturesStay s (deliver s) := by
  cases hs : s.responses with
  | nil => exact .of_slots (by simp only [deliver, hs])
  | cons ref rest =>
    rw [deliver_eq hs]
    exact (departed_capturesStay s rest ref).andThen (by simp)

/-! ### Every command -/

/-- A presentation reaches the captured fields of no slot but the FREE one that it fills. -/
theorem intake_sameCapture {s : State} (r : Request) {i : SlotId} (live : s.slots[i].state ≠ .free) :
    SameCapture s.slots[i] (intake s r).slots[i] := by
  rcases intake_cases s r with h | ⟨k, h⟩ | ⟨st, k, -, h⟩ | ⟨a, w, j, hfree, -, h⟩ | ⟨j, g, k, -, -, h⟩ <;> rw [h]
  · exact CapturesStay.of_slots (by simp) i
  · exact CapturesStay.of_slots (by simp) i
  · exact CapturesStay.of_slots (by simp [refusedInto]) i
  · have hne : i ≠ j := by
      rintro rfl
      exact live hfree
    rw [(acceptAccess_untouched s a w j).slots, accepted_slots_ne s a w hne]
    exact SameCapture.refl s.slots[i]
  · exact CapturesStay.of_slots (by simp) i

/-- Every command but a presentation and a hard reset keeps the captured fields of every slot. -/
theorem effect_capturesStay (c : Instr) (s : State) (hp : ∀ r, c ≠ .presentation r) (hr : c ≠ .hardReset) :
    CapturesStay s (effect c s) := by
  cases c with
  | presentation r => exact absurd rfl (hp r)
  | hardReset => exact absurd rfl hr
  | delivery => exact deliver_capturesStay s
  | grant => exact nextSlotGrant_capturesStay s
  | completion tag st line => exact complete_capturesStay s tag _
  | timeBaseStep => exact timeStep_capturesStay s
  | responseTimeout τ => exact (judgeTimeout_capturesStay s τ).andThen (by simp [effect])
  | commit => exact commitPart_capturesStay s
  | restart => exact restartPart_capturesStay s
  | drainGrant | hold _ | refillExpiry | aged _ | urgentEpisode _ | resetDeassert | shortFrame | unknownCommand _
  | readItem _ | writeItem _ _ | discardStaged | drain | resume | takeFault | ackAlert _ | clearCounters | status _ =>
    exact .of_slots (by simp [effect])

/-- Settles O59: an acceptance fills a slot that was FREE, a hard reset leaves every slot FREE, and every other command
keeps the captured fields. -/
theorem capturedFieldsStay : Obligations.CapturedFieldsStay := by
  intro c s t i h live live'
  rcases exec_eq_next h with ⟨-, rfl⟩ | rfl
  · exact .refl _
  · by_cases hp : ∃ r, c = .presentation r
    · obtain ⟨r, rfl⟩ := hp
      exact intake_sameCapture r live
    · by_cases hr : c = .hardReset
      · subst hr
        exact absurd (congrArg Slot.state (afterReset_slots s i)) live'
      · exact effect_capturesStay c s (fun r hc => hp ⟨r, hc⟩) hr i

end Sys2Proof.Machine

/-! PROOFS. The Request Store and the class queues: the end of an op, a step of time, RESTART, and a slot's grant. -/

namespace Sys2Proof.Machine

set_option Elab.async false

/-! ## Reading a whole state -/

/-- Two states with the same fields are the same state. -/
theorem state_ext {s t : State}
    (h : s.resetLine = t.resetLine ∧ s.holdLine = t.holdLine ∧ s.part = t.part ∧ s.tagTable = t.tagTable ∧
      s.refusals = t.refusals ∧ s.slots = t.slots ∧ s.arrival = t.arrival ∧ s.queues = t.queues ∧ s.lines = t.lines ∧
      s.entries = t.entries ∧ s.balances = t.balances ∧ s.refillCount = t.refillCount ∧
      s.periodInForce = t.periodInForce ∧ s.urgent = t.urgent ∧ s.pointer = t.pointer ∧ s.tags = t.tags ∧
      s.fences = t.fences ∧ s.fenceOrder = t.fenceOrder ∧ s.faults = t.faults ∧ s.overflow = t.overflow ∧
      s.readout = t.readout ∧ s.responses = t.responses ∧ s.staged = t.staged ∧ s.active = t.active ∧
      s.epoch = t.epoch ∧ s.shortFrame = t.shortFrame ∧ s.timeBase = t.timeBase ∧ s.causes = t.causes ∧
      s.counters = t.counters ∧ s.answer = t.answer ∧ s.issued = t.issued ∧ s.taken = t.taken ∧ s.mgmt = t.mgmt ∧
      s.pending = t.pending) : s = t := by
  cases s
  cases t
  simpa only [State.mk.injEq] using h

/-! ## The end of an event where something is held, and where a fault record was handed -/

/-- While something is held the empty conditions change nothing (R164, R170). -/
theorem judgeEmpty_held {s : State} (h : ¬ NothingHeld s) : judgeEmpty s = s := by
  have hc : ¬ emptyConditions s = true := fun he => h (nothingHeld_iff.2 he)
  unfold judgeEmpty
  split
  · exact if_neg hc
  · exact if_neg hc
  · rfl
  · rfl

/-- What a part state follows from is the state the event began in by a few fields only. -/
theorem PartFollows.congr {s s' t : State} {balances : Vector Int 6} (h : PartFollows s' t balances)
    (part : s'.part = s.part) (pointer : s'.pointer = s.pointer) (drained : s'.causes.drained = s.causes.drained)
    (restarted : s'.causes.restarted = s.causes.restarted) (active : s'.active = s.active) :
    PartFollows s t balances := by
  unfold PartFollows at h ⊢
  rw [part, pointer, drained, restarted, active] at h
  exact h

/-- The part state after an event that raised no cause the empty conditions raise. -/
theorem conclude_partFollows_of_causes {s u : State} (part : u.part = s.part) (pointer : u.pointer = s.pointer)
    (drained : u.causes.drained = s.causes.drained) (restarted : u.causes.restarted = s.causes.restarted)
    (active : u.active = s.active) : PartFollows s (conclude s u) u.balances :=
  PartFollows.congr (judgeEmpty_partFollows (s := publish s u) (u := publish s u) rfl rfl rfl rfl) part pointer drained
    restarted active

/-- Where no slot becomes DONE, only fences become ready (R15). -/
theorem readyRefs_fencesCompleted {s u : State} (order : u.fenceOrder = s.fenceOrder)
    (slots : ∀ i : SlotId, u.slots[i].state = .done → s.slots[i].state = .done) :
    readyRefs s u = fencesCompleted s u := by
  have hnone : u.arrival.filter (newlyDone s u) = [] := List.filter_eq_nil_iff.2 fun i _ => by
    simp only [newlyDone, Bool.and_eq_true, beq_iff_eq, bne_iff_ne]
    exact fun h => h.2 (slots i h.1)
  rw [readyRefs, hnone, order]
  rfl

/-! ## Records handed (R157) -/

theorem RecordsHanded.congr {s t t' : State} {rs : List FaultRecord} (h : RecordsHanded s t rs)
    (faults : t'.faults = t.faults) (overflow : t'.overflow = t.overflow)
    (recorded : t'.causes.faultRecorded = t.causes.faultRecorded)
    (overflowed : t'.causes.faultOverflow = t.causes.faultOverflow) : RecordsHanded s t' rs := by
  unfold RecordsHanded at h ⊢
  rw [faults, overflow, recorded, overflowed]
  exact h

theorem recordsHanded_nil {s t : State} (faults : t.faults = s.faults) (overflow : t.overflow = s.overflow)
    (recorded : t.causes.faultRecorded = s.causes.faultRecorded)
    (overflowed : t.causes.faultOverflow = s.causes.faultOverflow) : RecordsHanded s t [] := by
  refine ⟨?_, ?_, ?_, ?_⟩
  · rw [faults, List.take_nil, List.append_nil]
  · rw [overflow, List.length_nil, if_pos (Nat.zero_le _)]
  · simp [recorded]
  · simp [overflowed]

/-- One record joins the list where it has room, and is dropped and counted where it has none. -/
theorem recordsHanded_handRecord (s : State) (r : FaultRecord) : RecordsHanded s (handRecord s r) [r] := by
  unfold RecordsHanded
  by_cases h : s.faults.length < 8
  · obtain ⟨n, hn⟩ : ∃ n, 8 - s.faults.length = n + 1 := ⟨7 - s.faults.length, by omega⟩
    rw [handRecord_room r h, hn]
    simp
  · have hn : 8 - s.faults.length = 0 := by omega
    rw [handRecord_full r (by omega), hn]
    simp

/-- Records handed one list after another are handed in the order of both. -/
theorem RecordsHanded.trans {s u t : State} {as bs : List FaultRecord} (h : RecordsHanded s u as)
    (h' : RecordsHanded u t bs) : RecordsHanded s t (as ++ bs) := by
  obtain ⟨hf, ho, hr, hv⟩ := h
  obtain ⟨hf', ho', hr', hv'⟩ := h'
  have hroom : 8 - u.faults.length = 8 - s.faults.length - as.length := by
    rw [hf, List.length_append, List.length_take]
    omega
  rw [hroom] at hf' ho' hr' hv'
  refine ⟨?_, ?_, ?_, ?_⟩
  · rw [hf', hf, List.take_append, List.append_assoc]
  · rw [ho', ho, List.length_append]
    split <;> split <;> split <;> omega
  · rw [hr', hr, Bool.or_assoc, ← Bool.decide_or]
    congr 2
    rcases as with _ | ⟨a, as⟩
    · simp
    · simp only [List.cons_append, ne_eq, reduceCtorEq, not_false_eq_true, true_and, List.length_cons]
      exact propext ⟨fun h => by omega, fun h => .inl h⟩
  · rw [hv', hv, Bool.or_assoc, ← Bool.decide_or, List.length_append]
    congr 2
    exact propext ⟨fun h => by omega, fun h => by omega⟩

/-- Handing a record reaches the list, the overflow count and two causes. -/
theorem handRecord_fields (s : State) (r : FaultRecord) : ∃ fl ov fr fo, handRecord s r =
    { s with
      faults := fl, overflow := ov
      causes := { s.causes with faultRecorded := fr, faultOverflow := fo } } := by
  unfold handRecord
  split <;> exact ⟨_, _, _, _, rfl⟩

/-! ## A completion of an OUTSTANDING op (R131) -/

theorem exec_completion_outstanding {s : State} {τ : TagId} {op : OutstandingOp} (hr : s.resetLine = false)
    (hop : s.tags[τ] = .outstanding op) (st : MemStatus) (d : LineData) : exec (.completion τ st d) s =
      .next (conclude s (setTag (resolveSource s op.source (completionOutcome st d)) τ .free)) := by
  rw [exec_released hr, effect, complete, dif_pos τ.isLt]
  simp only [completeTag, Fin.eta, hop, endOp]

theorem resolveSlot_issued {s : State} {i : SlotId} (h : s.slots[i].state = .issued) (o : OpOutcome) :
    resolveSlot s i o = resolveIssued s i o := if_neg (by rw [h]; simp)

theorem resolveSlot_done {s : State} {i : SlotId} (h : s.slots[i].state = .done) (o : OpOutcome) :
    resolveSlot s i o = releaseTag (recordSlotLoss s i o) i := if_pos (by rw [h]; rfl)

/-! ## The completion of an ISSUED slot's op (R40, R131 to R133) -/

/-- The result of R40 is the first of its rows that applies. -/
theorem issuedResult_completion (x : Slot) (st : MemStatus) (d : LineData) :
    CompletionResult x st d (issuedResult x (completionOutcome st d)).1
      (issuedResult x (completionOutcome st d)).2 := by
  have hsnapshot (base : LineData) (l : Lane) : (underSnapshot x base)[l] =
      (match x.snapshot with | some m => if m[l] then x.data[l] else base[l] | none => base[l]) := by
    unfold underSnapshot
    cases x.snapshot with
    | none => rfl
    | some m => exact get_overlay m x.data base l l.isLt
  have hzero (l : Lane) : zeroLine[l] = 0 := by simp [zeroLine]
  refine ⟨fun ha => ?_, fun ha hk hst => ?_, fun ha hk hst hp => ?_, fun ha hk hst hp => ?_, fun ha hk => ?_⟩
  · simp only [issuedResult, ha, if_true, and_self]
  · subst hst
    simp only [issuedResult, ha, hk, completionOutcome, Bool.false_eq_true, if_false, true_and]
    exact hsnapshot d
  · subst hst
    simp only [issuedResult, ha, hk, hp, completionOutcome, Bool.false_eq_true, if_false, and_self]
  · subst hst
    simp only [issuedResult, ha, hk, hp, completionOutcome, Bool.false_eq_true, if_false, true_and]
    intro l
    have hlane := hsnapshot zeroLine l
    rw [hzero] at hlane
    exact hlane
  · simp only [issuedResult, ha, hk, Bool.false_eq_true, if_false, and_true]
    cases st <;> rfl

/-- Settles O38: the slot is DONE with the result of R40, so something is held and only its reference joins. -/
theorem issuedSlotIsCompleted : Obligations.IssuedSlotIsCompleted := by
  intro s τ st d op i hr hop hsrc hi harr
  let u := setTag (resolveIssued s i (completionOutcome st d)) τ .free
  have hslot : u.slots[i].state = .done := by
    show (resolveIssued s i _).slots[i].state = .done
    rw [resolveIssued, get_setSlot, if_pos rfl]
  have hother (j : SlotId) (hj : j ≠ i) : u.slots[j] = s.slots[j] :=
    get_put_ne _ _ hj
  have hconclude : conclude s u = publish s u := judgeEmpty_held fun hn => by
    have hfree : u.slots[i].state = .free := hn.1 i
    rw [hslot] at hfree
    cases hfree
  have hexec : exec (.completion τ st d) s = .next (publish s u) := by
    rw [exec_completion_outstanding hr hop, hsrc, resolveSource, resolveSlot_issued hi, hconclude]
  refine ⟨_, _, _, readyRefs s u, hexec, issuedResult_completion _ _ _, get_put_self _ _ _, hother, rfl, rfl,
    fun ref => ?_, rfl⟩
  cases ref with
  | slot j =>
    rw [slot_mem_readyRefs, Ref.slot.injEq]
    refine ⟨fun ⟨_, hd, hnew⟩ => ?_, fun hj => ?_⟩
    · by_contra hj
      rw [hother j hj] at hd
      exact hnew hd
    · rw [hj, hslot, hi]
      exact ⟨harr, rfl, nofun⟩
  | fence k =>
    rw [fence_mem_readyRefs]
    exact ⟨fun ⟨_, hc, hnew⟩ => absurd hc hnew, nofun⟩
  | refusal k => exact ⟨fun hm => absurd hm refusal_not_mem_readyRefs, nofun⟩

/-! ## The completion of a posted direct write's op (R42, R134) -/

theorem fencesCompleted_conclude (s u : State) : fencesCompleted s (conclude s u) = fencesCompleted s u := by
  simp only [fencesCompleted, conclude_frame]

theorem recordSlotLoss_fields (s : State) (i : SlotId) (o : OpOutcome) : ∃ fl ov fr fo fe, recordSlotLoss s i o =
    { s with
      faults := fl, overflow := ov, fences := fe
      causes := { s.causes with faultRecorded := fr, faultOverflow := fo } } := by
  unfold recordSlotLoss
  split
  · obtain ⟨fl, ov, fr, fo, h⟩ := handRecord_fields s (slotRecord s.slots[i] ‹_› s.timeBase)
    rw [h]
    exact ⟨_, _, _, _, _, rfl⟩
  · exact ⟨_, _, _, _, _, rfl⟩

theorem recordSlotLoss_records (s : State) (i : SlotId) (st : MemStatus) (d : LineData) :
    RecordsHanded s (recordSlotLoss s i (completionOutcome st d))
      (if st = .fault then [slotLoss .memFault s.slots[i] s.timeBase] else []) := by
  cases st with
  | ok => exact recordsHanded_nil rfl rfl rfl rfl
  | fault => exact RecordsHanded.congr (recordsHanded_handRecord s _) rfl rfl rfl rfl

/-- On FAULT the WAITING fences that hold the slot are marked (R134). -/
theorem recordSlotLoss_fences (s : State) (i : SlotId) (st : MemStatus) (d : LineData) (k : FenceId) :
    (recordSlotLoss s i (completionOutcome st d)).fences[k] =
      if s.fences[k].state = .waiting ∧ i ∈ s.fences[k].waitSlots ∧ st = .fault
      then { s.fences[k] with faulted := true } else s.fences[k] := by
  cases st with
  | ok => exact (if_neg fun ⟨_, _, hst⟩ => nomatch hst).symm
  | fault =>
    show (markSlotFences (handRecord s _) i).fences[k] = _
    rw [markSlotFences, Fin.getElem_fin, get_mapFences]
    simp only [handRecord_frame, Bool.and_eq_true, beq_iff_eq, List.contains_iff_mem, and_true, Fin.getElem_fin]

theorem releaseTag_fields (s : State) (i : SlotId) : ∃ sl ar fe, releaseTag s i =
    { s with slots := sl, arrival := ar, fences := fe } := by
  unfold releaseTag
  dsimp only
  split <;> exact ⟨_, _, _, rfl⟩

theorem releaseTag_arrival (s : State) (i : SlotId) :
    (releaseTag s i).arrival = if s.slots[i].delivered then without i s.arrival else s.arrival := by
  unfold releaseTag
  dsimp only
  split <;> rfl

/-- A slot that leaves with its tag leaves the wait sets (R42, R151). -/
theorem releaseTag_fences (s : State) (i : SlotId) (k : FenceId) :
    (releaseTag s i).fences[k] = if s.slots[i].delivered then dropSlot i s.fences[k] else s.fences[k] := by
  unfold releaseTag
  dsimp only
  split
  · obtain ⟨-, -, hdropped⟩ := freeSlot_spec (setSlot s i { s.slots[i] with memTag := none }) i
    exact hdropped k
  · rfl

/-- Settles O39: the loss is recorded and its fences marked before the tag is given up and a delivered slot leaves. -/
theorem postedWriteIsCompleted : Obligations.PostedWriteIsCompleted := by
  intro s τ st d op i hr hop hsrc hi x marked
  let v := recordSlotLoss s i (completionOutcome st d)
  let u := setTag (releaseTag v i) τ .free
  have hexec : exec (.completion τ st d) s = .next (conclude s u) := by
    rw [exec_completion_outstanding hr hop, hsrc, resolveSource, resolveSlot_done hi]
  have hvslots : v.slots = s.slots := by simp only [v, recordSlotLoss_frame]
  have hslots (j : SlotId) : u.slots[j] = if j = i then
      { x with memTag := none, state := if x.delivered then .free else x.state } else s.slots[j] := by
    have h := releaseTag_slots v i j
    rw [hvslots] at h
    exact h
  have harrival : u.arrival = if x.delivered then without i s.arrival else s.arrival := by
    have h := releaseTag_arrival v i
    rw [hvslots, show v.arrival = s.arrival by simp only [v, recordSlotLoss_frame]] at h
    exact h
  have hfences (k : FenceId) : u.fences[k] =
      if x.delivered then dropSlot i (marked s.fences[k]) else marked s.fences[k] := by
    have h := releaseTag_fences v i k
    rw [hvslots, recordSlotLoss_fences s i st d k] at h
    exact h
  have hdone (j : SlotId) (h : u.slots[j].state = .done) : s.slots[j].state = .done := by
    rw [hslots] at h
    split at h
    · next hj => rw [hj]; exact hi
    · exact h
  obtain ⟨fl, ov, fr, fo, fv, hv⟩ := recordSlotLoss_fields s i (completionOutcome st d)
  obtain ⟨sl, ar, fe, hrelease⟩ := releaseTag_fields v i
  have hu : u = { s with
      slots := sl, arrival := ar, fences := fe, faults := fl, overflow := ov, tags := put s.tags τ .free
      causes := { s.causes with faultRecorded := fr, faultOverflow := fo } } := by
    simp only [u, hrelease]
    simp only [v, hv]
    rfl
  obtain ⟨p, q, b, dr, rs, hc⟩ := conclude_fields s u
  refine ⟨_, hexec, ?_, fun j hj => ?_, fun hd => ⟨?_, ?_, fun k => ?_⟩, fun hd => ⟨?_, ?_, fun k => ?_⟩, ?_, ?_, ?_, ?_,
    ?_⟩
  · simp only [conclude_frame, hu]
  · simp only [conclude_frame]
    rw [hslots, if_neg hj]
  · simp only [conclude_frame]
    rw [hslots, if_pos rfl, hd]
    rfl
  · simp only [conclude_frame]
    rw [harrival, if_neg (by rw [hd]; exact Bool.false_ne_true)]
  · simp only [conclude_frame]
    rw [hfences, if_neg (by rw [hd]; exact Bool.false_ne_true)]
  · simp only [conclude_frame]
    rw [hslots, if_pos rfl, hd]
    rfl
  · simp only [conclude_frame]
    rw [harrival, if_pos hd]
  · simp only [conclude_frame]
    rw [hfences, if_pos hd]
    exact dropSlot_leaves i _
  · refine RecordsHanded.congr (recordSlotLoss_records s i st d) ?_ ?_ ?_ ?_
    all_goals rw [hc, hu, hv]
  · rw [conclude_responses, readyRefs_fencesCompleted (by rw [hu]) hdone, fencesCompleted_conclude, hu]
  · have hbalances : u.balances = s.balances := by rw [hu]
    rw [← hbalances]
    exact conclude_partFollows_of_causes (by rw [hu]) (by rw [hu]) (by rw [hu]) (by rw [hu]) (by rw [hu])
  · rw [hc, hu]
  · rw [hc, hu]

/-! ## PRESSURE (R94) -/

theorem pressureCondition_iff {s : State} : pressureCondition s = true ↔
    (List.finRange 16).countP (fun d => s.entries[d].state = .free) ≤ s.active.mergeReserve.toNat ∧
    ∀ d : EntryId, s.entries[d].state ≠ .free → .pressure ∉ s.entries[d].reasons := by
  have hcount : freeEntries s = (List.finRange 16).countP (fun d => s.entries[d].state = .free) :=
    List.countP_congr fun d _ => by rw [beq_iff_eq, decide_eq_true_eq]
  simp only [pressureCondition, Bool.and_eq_true, decide_eq_true_eq, hcount, allOf_iff, Bool.or_eq_true, beq_iff_eq,
    Bool.not_eq_true', List.contains_eq_mem, decide_eq_false_iff_not, or_iff_not_imp_left]

/-- The judgement of PRESSURE is what `pressured` says of the entries. -/
theorem judgePressure_entries (s : State) :
    (judgePressure s).entries = pressured s.active.mergeReserve.toNat s.timeBase s.entries := by
  refine vector_ext fun d => ?_
  rw [pressured, get_tabulate]
  rcases judgePressure_spec s with ⟨e, hc, hold, h⟩ | ⟨hno, h⟩
  · rw [h, addReason_entries, get_put]
    have holdest (d : EntryId) : IsOldest (fun d => s.entries[d].state == .opened)
        (fun d => ageOf s.timeBase s.entries[d].firstMerge) d ↔ s.entries[d].state = .opened ∧
        ∀ d' : EntryId, s.entries[d'].state = .opened →
          ageOf s.timeBase s.entries[d'].firstMerge ≤ ageOf s.timeBase s.entries[d].firstMerge ∧
          (ageOf s.timeBase s.entries[d'].firstMerge = ageOf s.timeBase s.entries[d].firstMerge → d ≤ d') := by
      simp only [IsOldest, beq_iff_eq]
    obtain ⟨hfew, hnone⟩ := pressureCondition_iff.1 hc
    by_cases hd : d = e
    · subst hd
      rw [if_pos rfl, if_pos ⟨hfew, hnone, (holdest d).1 hold⟩]
    · rw [if_neg hd, if_neg fun ⟨_, _, hp⟩ => hd (((holdest d).2 hp).unique hold)]
  · rw [h, if_neg fun ⟨hfew, hnone, hopen, _⟩ => hno (pressureCondition_iff.2 ⟨hfew, hnone⟩) d hopen]

/-! ## An entry becomes FREE (R97) -/

theorem freeEntry_entries (s : State) (e : EntryId) : (freeEntry s e).entries =
    pressured s.active.mergeReserve.toNat s.timeBase (put s.entries e MergeEntry.free) := by
  rw [freeEntry, judgePressure_entries]
  simp only [tidyLine_frame, setMergeRef_frame, departEntry_frame, setEntry_active, setEntry_timeBase]
  rfl

theorem freeEntry_fences (s : State) (e : EntryId) (k : FenceId) :
    (freeEntry s e).fences[k] = dropEntry e s.fences[k] := by
  simp only [freeEntry, judgePressure_frame, tidyLine_frame, setMergeRef_frame]
  exact get_mapFences _ _ k k.isLt

/-- What a line whose entry's reference is cleared and removed where idle holds: no reference. -/
theorem mergeRef_tidyLine_setMergeRef_none (s : State) (a : LineAddr) :
    mergeRef (tidyLine (setMergeRef s a none) a) a = none := by
  have hall : ∀ l ∈ (tidyLine (setMergeRef s a none) a).lines, l.line = a → l.mergeRef = none := by
    intro l hl ha
    obtain ⟨x, -, rfl⟩ := List.mem_map.1 (List.mem_of_mem_filter hl)
    dsimp only at ha ⊢
    split
    · rfl
    · next hx =>
      rw [if_neg hx] at ha
      exact absurd (beq_iff_eq.2 ha) hx
  unfold mergeRef
  cases hf : findLine (tidyLine (setMergeRef s a none) a) a with
  | none => rfl
  | some l =>
    have hline := List.find?_some hf
    exact hall l (List.mem_of_find?_eq_some hf) (beq_iff_eq.1 hline)

theorem freeEntry_findLine (s : State) (e : EntryId) : mergeRef (freeEntry s e) s.entries[e].line = none ∧
    (∀ b, b ≠ s.entries[e].line → findLine (freeEntry s e) b = findLine s b) ∧
    ((s.lines.map (·.line)).Nodup → ∀ b, lineList (freeEntry s e) b = lineList s b) := by
  let a := s.entries[e].line
  let v := departEntry (setEntry s e MergeEntry.free) e
  have hv : v.lines = s.lines := by simp only [v, departEntry_frame, setEntry_lines]
  have hfind (b : LineAddr) : findLine (freeEntry s e) b = findLine (tidyLine (setMergeRef v a none) a) b := by
    simp only [findLine, freeEntry, judgePressure_frame]
    rfl
  obtain ⟨-, -, hother⟩ := setMergeRef_spec v a none
  refine ⟨?_, fun b hb => ?_, fun hnd b => ?_⟩
  · rw [mergeRef, hfind]
    exact mergeRef_tidyLine_setMergeRef_none v a
  · rw [hfind, findLine_tidyLine_ne _ hb, hother b hb, findLine, findLine, hv]
  · have hnd' : ((setMergeRef v a none).lines.map (·.line)).Nodup := by
      rw [setMergeRef, map_line_updateLine _ _ (by intro l; rfl), hv]
      exact hnd
    rw [lineList_eq_of_findLine (hfind b), tidyLine_lists hnd', setMergeRef_lists, lineList_congr hv]

theorem dropEntry_leaves (e : EntryId) (f : FenceRecord) : LeavesWaitSets (fun f => e ∈ f.waitEntries)
    (fun f => { f with waitEntries := without e f.waitEntries }) f (dropEntry e f) :=
  leavesWaitSets_of rfl (dropEntry_spec e f).1 (dropEntry_spec e f).2

/-! ## The loss of an entry's data (R98) -/

theorem isPosted_iff {c : Option Contribution} : isPosted c = true ↔ c = some .posted := beq_iff_eq

theorem recordEntryLoss_fields (s : State) (e : EntryId) (k : LossKind) : ∃ fl ov fr fo fe, recordEntryLoss s e k =
    { s with
      faults := fl, overflow := ov, fences := fe
      causes := { s.causes with faultRecorded := fr, faultOverflow := fo } } := by
  obtain ⟨fl, ov, fr, fo, h⟩ := handRecord_fields s (entryRecord s.entries[e] k s.timeBase)
  rw [recordEntryLoss, h]
  exact ⟨_, _, _, _, _, rfl⟩

theorem recordEntryLoss_records (s : State) (e : EntryId) (k : LossKind) :
    RecordsHanded s (recordEntryLoss s e k) [entryLoss k s.entries[e] s.timeBase] :=
  RecordsHanded.congr (recordsHanded_handRecord s _) rfl rfl rfl rfl

/-- The WAITING fences that hold the entry and whose initiator is a posted contributor are marked. -/
theorem recordEntryLoss_fences (s : State) (e : EntryId) (l : LossKind) (k : FenceId) :
    (recordEntryLoss s e l).fences[k] = if s.fences[k].state = .waiting ∧ e ∈ s.fences[k].waitEntries ∧
        s.entries[e].contributors[s.fences[k].initiator] = some .posted
      then { s.fences[k] with faulted := true } else s.fences[k] := by
  rw [recordEntryLoss, markEntryFences, Fin.getElem_fin, get_mapFences]
  simp only [handRecord_frame, Bool.and_eq_true, beq_iff_eq, List.contains_iff_mem, isPosted_iff, Fin.getElem_fin,
    and_assoc]

/-! ## The end of a drain's op (R41, R97, R98, R100) -/

theorem answerWaiting_fields (s : State) (e : EntryId) (st : Status) : ∃ sl, answerWaiting s e st =
    { s with slots := sl, entries := put s.entries e { s.entries[e] with waiting := [] } } := by
  have hfold (l : List SlotId) : ∃ sl, l.foldl (finishWaiting st) s = { s with slots := sl } := by
    induction l using List.reverseRecOn with
    | nil => exact ⟨_, rfl⟩
    | append_singleton l i ih =>
      obtain ⟨sl, h⟩ := ih
      rw [List.foldl_append, h]
      exact ⟨_, rfl⟩
  obtain ⟨sl, h⟩ := hfold s.entries[e].waiting
  rw [answerWaiting, h]
  exact ⟨_, rfl⟩

/-- The state in which a drain's entry becomes FREE: its confirmations answered and its loss recorded. -/
def drainAnswered (s : State) (e : EntryId) (o : OpOutcome) : State :=
  match lossOf o with
  | some k => recordEntryLoss (answerWaiting s e (writeStatus o)) e k
  | none => answerWaiting s e (writeStatus o)

theorem resolveEntry_eq (s : State) (e : EntryId) (o : OpOutcome) :
    resolveEntry s e o = freeEntry (drainAnswered s e o) e := rfl

theorem drainAnswered_fields (s : State) (e : EntryId) (o : OpOutcome) : ∃ sl fl ov fr fo fe, drainAnswered s e o =
    { s with
      slots := sl, entries := put s.entries e { s.entries[e] with waiting := [] }
      faults := fl, overflow := ov, fences := fe
      causes := { s.causes with faultRecorded := fr, faultOverflow := fo } } := by
  obtain ⟨sl, h⟩ := answerWaiting_fields s e (writeStatus o)
  unfold drainAnswered
  split
  · obtain ⟨fl, ov, fr, fo, fe, h'⟩ := recordEntryLoss_fields (answerWaiting s e (writeStatus o)) e ‹_›
    rw [h', h]
    exact ⟨_, _, _, _, _, _, rfl⟩
  · rw [h]
    exact ⟨_, _, _, _, _, _, rfl⟩

theorem drainAnswered_records (s : State) (e : EntryId) (st : MemStatus) (d : LineData) :
    RecordsHanded s (drainAnswered s e (completionOutcome st d))
      (if st = .fault then [entryLoss .memFault s.entries[e] s.timeBase] else []) := by
  cases st with
  | ok =>
    obtain ⟨sl, h⟩ := answerWaiting_fields s e .ok
    show RecordsHanded s (answerWaiting s e .ok) []
    rw [h]
    exact recordsHanded_nil rfl rfl rfl rfl
  | fault =>
    obtain ⟨sl, h⟩ := answerWaiting_fields s e .errMem
    have hr := recordEntryLoss_records (answerWaiting s e .errMem) e .memFault
    show RecordsHanded s (recordEntryLoss (answerWaiting s e .errMem) e .memFault) _
    rw [h] at hr ⊢
    dsimp only at hr
    rw [get_put_self] at hr
    exact hr

theorem drainAnswered_fences (s : State) (e : EntryId) (st : MemStatus) (d : LineData) (k : FenceId) :
    (drainAnswered s e (completionOutcome st d)).fences[k] =
      if s.fences[k].state = .waiting ∧ e ∈ s.fences[k].waitEntries ∧
        s.entries[e].contributors[s.fences[k].initiator] = some .posted ∧ st = .fault
      then { s.fences[k] with faulted := true } else s.fences[k] := by
  cases st with
  | ok =>
    rw [if_neg fun ⟨_, _, _, hst⟩ => nomatch hst]
    show (answerWaiting s e .ok).fences[k] = _
    simp only [answerWaiting_frame]
  | fault =>
    obtain ⟨sl, h⟩ := answerWaiting_fields s e .errMem
    have hm := recordEntryLoss_fences (answerWaiting s e .errMem) e .memFault k
    show (recordEntryLoss (answerWaiting s e .errMem) e .memFault).fences[k] = _
    rw [hm, h]
    dsimp only
    rw [get_put_self]
    simp only [and_true]

theorem freeEntry_fields (s : State) (e : EntryId) : ∃ en ln fe, freeEntry s e =
    { s with entries := en, lines := ln, fences := fe } :=
  ⟨(freeEntry s e).entries, (freeEntry s e).lines, (freeEntry s e).fences, state_ext (by simp)⟩

theorem writeStatus_completionOutcome (st : MemStatus) (d : LineData) :
    writeStatus (completionOutcome st d) = match st with | .ok => .ok | .fault => .errMem := by
  cases st <;> rfl

/-- Settles O40: the confirmations are answered and the loss recorded, then the entry becomes FREE. -/
theorem drainIsCompleted : Obligations.DrainIsCompleted := by
  intro s τ st d op e hr hlaw hop hsrc m marked
  let o := completionOutcome st d
  let v := drainAnswered s e o
  let u := setTag (freeEntry v e) τ .free
  have hexec : exec (.completion τ st d) s = .next (conclude s u) := by
    rw [exec_completion_outstanding hr hop, hsrc, resolveSource, resolveEntry_eq]
  obtain ⟨sl, fl, ov, fr, fo, fv, hv⟩ := drainAnswered_fields s e o
  obtain ⟨en, ln, fe, hfree⟩ := freeEntry_fields v e
  have hu : u = { s with
      slots := sl, lines := ln, entries := en, fences := fe, faults := fl, overflow := ov
      tags := put s.tags τ .free
      causes := { s.causes with faultRecorded := fr, faultOverflow := fo } } := by
    simp only [u, hfree]
    simp only [v, hv]
    rfl
  have hline : v.entries[e].line = m.line := by
    simp only [v, hv]
    rw [get_put_self]
  have hlines : v.lines = s.lines := by simp only [v, hv]
  have hslots (j : SlotId) : u.slots[j] = if j ∈ m.waiting then doneWith (writeStatus o) s.slots[j] else s.slots[j] :=
    resolveEntry_slots s e o j
  have hfind (b : LineAddr) : findLine (conclude s u) b = findLine (freeEntry v e) b := by
    simp only [findLine, conclude_frame]
    rfl
  obtain ⟨href, hother, hlists⟩ := freeEntry_findLine v e
  have hready : (s.arrival.filter (newlyDone s u)) =
      s.arrival.filter (fun i => decide (i ∈ m.waiting) && s.slots[i].state != .done) :=
    List.filter_congr fun i _ => by
      rw [newlyDone, hslots]
      by_cases hi : i ∈ m.waiting
      · rw [if_pos hi, decide_eq_true hi]
        rfl
      · rw [if_neg hi, decide_eq_false hi]
        cases s.slots[i].state <;> rfl
  obtain ⟨p, q, b, dr, rs, hc⟩ := conclude_fields s u
  refine ⟨_, hexec, ?_, fun i => ?_, ?_, ?_, fun b hb => ?_, ?_, fun k => ?_, ?_, ?_, ?_, ?_, ?_⟩
  · simp only [conclude_frame, hu]
  · simp only [conclude_frame]
    rw [hslots, writeStatus_completionOutcome]
    rfl
  · simp only [conclude_frame]
    show (freeEntry v e).entries = _
    rw [freeEntry_entries]
    simp only [v, hv, put_put]
  · rw [← hline, mergeRef, hfind]
    exact href
  · rw [hfind, hother b (hline ▸ hb), findLine, findLine, hlines]
  · rw [lineList_eq_of_findLine (hfind m.line), hlists (hlines ▸ hlaw.1), lineList_congr hlines]
  · simp only [conclude_frame]
    show LeavesWaitSets _ _ _ (freeEntry v e).fences[k]
    rw [freeEntry_fences, drainAnswered_fences s e st d k]
    exact dropEntry_leaves e _
  · refine RecordsHanded.congr (drainAnswered_records s e st d) ?_ ?_ ?_ ?_
    all_goals rw [hc, hu, hv]
  · have hfences : ((u.fenceOrder.filter (newlyCompleted s u)).map Ref.fence) = fencesCompleted s (conclude s u) := by
      rw [fencesCompleted_conclude, hu]
      rfl
    rw [conclude_responses, readyRefs, hfences, show u.arrival = s.arrival by rw [hu], hready, ← List.append_assoc,
      show u.responses = s.responses by rw [hu]]
  · have hbalances : u.balances = s.balances := by rw [hu]
    rw [← hbalances]
    exact conclude_partFollows_of_causes (by rw [hu]) (by rw [hu]) (by rw [hu]) (by rw [hu]) (by rw [hu])
  · rw [hc, hu]
  · rw [hc, hu]

/-! ## A step of the time base (R46, R106, R107, R195) -/

/-- Every slot's age stays. -/
def AgesStay (s t : State) : Prop := ∀ i : SlotId, t.slots[i].age = s.slots[i].age

theorem resolveSlot_agesStay (s : State) (i : SlotId) (o : OpOutcome) : AgesStay s (resolveSlot s i o) := fun j => by
  by_cases hj : j = i
  · subst hj
    unfold resolveSlot
    split
    · rw [releaseTag_slots, if_pos rfl]
      simp only [recordSlotLoss_frame]
    · rw [resolveIssued, get_setSlot, if_pos rfl]
  · rw [resolveSlot_slots_ne s o hj]

theorem resolveSource_agesStay (s : State) (src : Source) (o : OpOutcome) : AgesStay s (resolveSource s src o) := by
  cases src with
  | slot i => exact resolveSlot_agesStay s i o
  | entry e =>
    intro j
    rw [resolveSource, resolveEntry_slots]
    split <;> rfl

theorem judgeTimeout_agesStay (s : State) (τ : TagId) : AgesStay s (judgeTimeout s τ) := by
  unfold judgeTimeout
  split
  · next op _ =>
    split
    · have hslots : (timeOut s τ op).slots = (resolveSource s op.source .timeout).slots := by simp [timeOut]
      intro i
      rw [hslots]
      exact resolveSource_agesStay s op.source .timeout i
    · exact fun _ => rfl
  · exact fun _ => rfl
  · exact fun _ => rfl

theorem judgeAllTimeouts_agesStay (s : State) : AgesStay s (judgeAllTimeouts s) :=
  forEach_keeps (P := AgesStay s) (fun t τ h i => (judgeTimeout_agesStay t τ i).trans (h i)) fun _ => rfl

/-- No counter changes but URGENT_EPISODES and TIMEOUTS. -/
structure CountsTime (s t : State) : Prop where
  perClass : ∀ k : ClassId, t.counters.perClass[k] =
    { s.counters.perClass[k] with urgentEpisodes := t.counters.perClass[k].urgentEpisodes }
  rest : t.counters = { s.counters with perClass := t.counters.perClass, timeouts := t.counters.timeouts }

theorem CountsTime.of_eq {s t : State} (h : t.counters = s.counters) : CountsTime s t where
  perClass k := by rw [h]
  rest := by rw [h]

theorem CountsTime.trans {s t u : State} (h : CountsTime s t) (h' : CountsTime t u) : CountsTime s u where
  perClass k := by rw [h'.perClass k, h.perClass k]
  rest := by rw [h'.rest, h.rest]

theorem judgeUrgency_countsTime (s : State) (k : ClassId) : CountsTime s (judgeUrgency s k) := by
  have hcounters := (judgeUrgency_spec s k).2
  split at hcounters
  · refine ⟨fun j => ?_, by rw [hcounters]⟩
    rw [hcounters]
    dsimp only
    rw [get_put]
    split
    · next hj => rw [hj]
    · rfl
  · exact .of_eq hcounters

theorem judgeTimeout_countsTime (s : State) (τ : TagId) : CountsTime s (judgeTimeout s τ) := by
  unfold judgeTimeout
  split
  · next op _ =>
    split
    · have hcounters : (timeOut s τ op).counters = { s.counters with timeouts := satAdd s.counters.timeouts 1 } := by
        have hsource : (resolveSource s op.source .timeout).counters = s.counters := by simp only [resolveSource_frame]
        rw [← hsource]
        rfl
      exact ⟨fun k => by rw [hcounters], by rw [hcounters]⟩
    · exact .of_eq rfl
  · exact .of_eq rfl
  · exact .of_eq rfl

theorem judgeAllUrgency_countsTime (s : State) : CountsTime s (judgeAllUrgency s) :=
  forEach_keeps (fun t k h => h.trans (judgeUrgency_countsTime t k)) (.of_eq rfl)

theorem judgeAllTimeouts_countsTime (s : State) : CountsTime s (judgeAllTimeouts s) :=
  forEach_keeps (fun t τ h => h.trans (judgeTimeout_countsTime t τ)) (.of_eq rfl)

/-- A step before its end: time advanced and every judgement of R195 made. -/
def timeJudged (s : State) : State :=
  judgeAllTimeouts (judgeAllAged (judgeAllUrgency (judgeRefill (advanceTime s))))

theorem timeJudged_countsTime (s : State) : CountsTime s (timeJudged s) := by
  have hstart : CountsTime s (judgeRefill (advanceTime s)) := .of_eq (by simp)
  have haged (t : State) : CountsTime t (judgeAllAged t) := .of_eq (by simp)
  exact ((hstart.trans (judgeAllUrgency_countsTime _)).trans (haged _)).trans (judgeAllTimeouts_countsTime _)

theorem agedSlot_age (x : Slot) :
    (agedSlot x).age = if x.state = .free then x.age else min (x.age + 1) 65535 := by
  by_cases h : x.state = .free
  · simp [agedSlot, slotLive, h]
  · simp [agedSlot, slotLive, h, Config.ageLimit]

theorem timeJudged_age (s : State) (i : SlotId) : (timeJudged s).slots[i].age =
    if s.slots[i].state = .free then s.slots[i].age else min (s.slots[i].age + 1) 65535 := by
  rw [timeJudged, judgeAllTimeouts_agesStay]
  simp only [judgeAllAged_frame, judgeAllUrgency_frame, judgeRefill_frame]
  rw [advanceTime_spec]
  dsimp only
  rw [get_tabulate, agedSlot_age]

/-- The refill count and the balances once the period has been judged against the active one (R106, R107). -/
theorem judgeRefill_advanceTime (s : State) :
    (s.active.refillPeriod.toNat ≤ s.refillCount + 1 → judgeRefill (advanceTime s) = { advanceTime s with
      balances := tabulate (fun k => refilled s.active k s.balances[k]), refillCount := 0 }) ∧
    (¬ s.active.refillPeriod.toNat ≤ s.refillCount + 1 → judgeRefill (advanceTime s) = advanceTime s) := by
  obtain ⟨hdue, hstays⟩ := judgeRefill_spec (advanceTime s)
  have hperiod : (advanceTime s).periodInForce = s.active.refillPeriod := rfl
  have hcount : (advanceTime s).refillCount = s.refillCount + 1 := rfl
  refine ⟨fun h => (hdue (by rw [hperiod, hcount]; exact h)).trans (by simp only [advanceTime_frame]), fun h => ?_⟩
  exact hstays (by rw [hperiod, hcount]; exact Nat.lt_of_not_le h)

/-- A refill raises a metered balance by the refill, to the ceiling at most (R107). -/
theorem refilled_eq (c : ConfigSet) (k : ClassId) (b : Int) : refilled c k b = refilledBalance c k b := by
  by_cases hm : c.classes[k].metered = 1
  · have hflag : metered c k = true := flagOf_iff.2 hm
    rw [refilled, refilledBalance, if_pos hflag, if_pos hm]
    by_cases h : ceiling c k < b + refill c k
    · exact (min_eq_right h.le).trans (if_pos h).symm
    · exact (min_eq_left (not_lt.1 h)).trans (if_neg h).symm
  · have hflag : ¬ metered c k = true := fun h => hm (flagOf_iff.1 h)
    rw [refilled, refilledBalance, if_neg hflag, if_neg hm]

/-- Only the completion of a restart sets balances at the end of an event (R171). -/
theorem conclude_balances {s u : State} (h : u.part ≠ .restarting) : (conclude s u).balances = u.balances := by
  show (judgeEmpty (publish s u)).balances = _
  unfold judgeEmpty
  split
  · split <;> rfl
  · next hp => exact absurd hp h
  · rfl
  · rfl

/-- Settles O43: time advances, the period in force is judged, and the judgements after it reach neither. -/
theorem timeBaseAdvances : Obligations.TimeBaseAdvances := by
  intro s hr due
  have hexec : exec .timeBaseStep s = .next (timeStep s) := by rw [exec_released hr, effect]
  have hcounts := timeJudged_countsTime s
  have hcounters : (timeStep s).counters = (timeJudged s).counters := by
    show (conclude s (timeJudged s)).counters = _
    simp only [conclude_frame]
  have hrefill : (timeStep s).refillCount = (judgeRefill (advanceTime s)).refillCount := by simp [timeStep]
  obtain ⟨hdue, hstays⟩ := judgeRefill_advanceTime s
  refine ⟨_, hexec, ?_, ?_, ?_, fun i => ?_, fun hp k => ?_, timeStep_capturesStay s, fun k => ?_, ?_, ?_⟩
  · simp only [timeStep, conclude_frame, judgeAllTimeouts_frame, judgeAllAged_frame, judgeAllUrgency_frame,
      judgeRefill_frame]
    rfl
  · rw [hrefill]
    by_cases h : due
    · rw [if_pos h, hdue h]
    · rw [if_neg h, hstays h]
      rfl
  · simp only [timeStep, conclude_frame, judgeAllTimeouts_frame, judgeAllAged_frame, judgeAllUrgency_frame,
      judgeRefill_frame]
    rfl
  · rw [← timeJudged_age]
    show (conclude s (timeJudged s)).slots[i].age = _
    simp only [conclude_frame]
  · have hpart : (timeJudged s).part ≠ .restarting := by simpa [timeJudged] using hp
    have hbalances : (timeStep s).balances = (judgeRefill (advanceTime s)).balances := by
      show (conclude s (timeJudged s)).balances = _
      rw [conclude_balances hpart]
      simp [timeJudged]
    rw [hbalances]
    by_cases h : due
    · rw [if_pos h, hdue h, ← refilled_eq]
      exact get_tabulate _ k
    · rw [if_neg h, hstays h]
      simp only [advanceTime_frame]
  · rw [hcounters]
    exact hcounts.perClass k
  · rw [hcounters]
    exact hcounts.rest
  · exact state_ext (by simp)

/-! ## What the discards of RESTART do (R101) -/

/-- A WAITING fence's record after the discard of the entries `ds`: marked where one of them that it waits for holds posted
data of its initiator, and waiting for none but the others. -/
def FenceDiscarded (s : State) (ds : List EntryId) (f g : FenceRecord) : Prop :=
  g = { f with faulted := g.faulted, waitEntries := g.waitEntries } ∧
  (g.faulted = true ↔ f.faulted = true ∨
    ∃ e ∈ ds, e ∈ f.waitEntries ∧ s.entries[e].contributors[f.initiator] = some .posted) ∧
  ∀ d, d ∉ ds → (d ∈ g.waitEntries ↔ d ∈ f.waitEntries)

/-- The entries `ds` have been discarded, in this order, since `s`. -/
structure Discarded (s : State) (ds : List EntryId) (t : State) : Prop where
  timeBase : t.timeBase = s.timeBase
  entries : ∀ d : EntryId, t.entries[d] = if d ∈ ds then MergeEntry.free else s.entries[d]
  lines : t.lines = s.lines.map (fun l =>
    if ∃ e ∈ ds, s.entries[e].line = l.line then { l with mergeRef := none } else l)
  settled : ∀ k : FenceId, s.fences[k].state ≠ .waiting → t.fences[k] = s.fences[k]
  waiting : ∀ k : FenceId, s.fences[k].state = .waiting → FenceDiscarded s ds s.fences[k] t.fences[k]
  records : RecordsHanded s t (ds.map (fun e => entryLoss .discarded s.entries[e] s.timeBase))

theorem Discarded.nil (s : State) : Discarded s [] s where
  timeBase := rfl
  entries _ := rfl
  lines := by simp
  settled _ _ := rfl
  waiting k _ := ⟨rfl, by simp, fun _ _ => .rfl⟩
  records := recordsHanded_nil rfl rfl rfl rfl

theorem discardEntry_live {s : State} {e : EntryId} (h : entryLive s.entries[e] = true) : discardEntry s e =
    setMergeRef (mapFences (setEntry (recordEntryLoss s e .discarded) e MergeEntry.free) (withdrawEntry e))
      s.entries[e].line none := if_pos h

theorem discardEntry_other {s : State} {e : EntryId} (h : ¬ entryLive s.entries[e] = true) : discardEntry s e = s :=
  if_neg h

theorem discardEntry_entries {s : State} {e : EntryId} (h : entryLive s.entries[e] = true) :
    (discardEntry s e).entries = put s.entries e MergeEntry.free := by
  rw [discardEntry_live h]
  simp only [setMergeRef_frame, mapFences_frame]
  show put (recordEntryLoss s e .discarded).entries e MergeEntry.free = _
  simp only [recordEntryLoss_frame]

theorem discardEntry_fences {s : State} {e : EntryId} (h : entryLive s.entries[e] = true) (k : FenceId) :
    (discardEntry s e).fences[k] = withdrawEntry e (recordEntryLoss s e .discarded).fences[k] := by
  rw [discardEntry_live h]
  simp only [setMergeRef_frame]
  exact get_mapFences _ _ k k.isLt

theorem discardEntry_records {s : State} {e : EntryId} (h : entryLive s.entries[e] = true) :
    RecordsHanded s (discardEntry s e) [entryLoss .discarded s.entries[e] s.timeBase] := by
  rw [discardEntry_live h]
  exact RecordsHanded.congr (recordEntryLoss_records s e .discarded) (by simp) (by simp) (by simp) (by simp)

/-- The discard of an entry from a WAITING record: the mark, then the withdrawal. -/
theorem FenceDiscarded.step {s t : State} {ds : List EntryId} {a : EntryId} {f g : FenceRecord}
    (h : FenceDiscarded s ds f g) (ha : a ∉ ds) (hf : f.state = .waiting)
    (hentry : t.entries[a] = s.entries[a]) : FenceDiscarded s (ds ++ [a]) f (withdrawEntry a
      (if g.state = .waiting ∧ a ∈ g.waitEntries ∧ t.entries[a].contributors[g.initiator] = some .posted
        then { g with faulted := true } else g)) := by
  obtain ⟨hg, hmark, hwaits⟩ := h
  have hstate : g.state = .waiting := by rw [hg]; exact hf
  have hinit : g.initiator = f.initiator := by rw [hg]
  have hwithdraw (x : FenceRecord) (hx : x.state = .waiting) :
      withdrawEntry a x = { x with waitEntries := without a x.waitEntries } := if_pos (by rw [hx]; rfl)
  have hwaits' (d : EntryId) (hd : d ∉ ds ++ [a]) : d ∈ without a g.waitEntries ↔ d ∈ f.waitEntries := by
    rw [List.mem_append, List.mem_singleton, not_or] at hd
    rw [mem_without, hwaits d hd.1]
    exact and_iff_left hd.2
  have hmark' : (∃ e ∈ ds ++ [a], e ∈ f.waitEntries ∧ s.entries[e].contributors[f.initiator] = some .posted) ↔
      (∃ e ∈ ds, e ∈ f.waitEntries ∧ s.entries[e].contributors[f.initiator] = some .posted) ∨
      (a ∈ f.waitEntries ∧ s.entries[a].contributors[f.initiator] = some .posted) := by
    simp only [List.mem_append, List.mem_singleton, or_and_right, exists_or, exists_eq_left]
  have hposted : (a ∈ f.waitEntries ∧ s.entries[a].contributors[f.initiator] = some .posted) ↔
      (g.state = .waiting ∧ a ∈ g.waitEntries ∧ t.entries[a].contributors[g.initiator] = some .posted) := by
    simp only [hstate, true_and, hwaits a ha, hentry, hinit]
  unfold FenceDiscarded
  rw [hmark', ← or_assoc, ← hmark, hposted]
  split
  · next hp =>
    rw [hwithdraw { g with faulted := true } hstate]
    refine ⟨?_, ⟨fun _ => .inr hp, fun _ => rfl⟩, hwaits'⟩
    rw [hg]
  · next hp =>
    rw [hwithdraw _ hstate]
    refine ⟨?_, ⟨.inl, fun h => h.resolve_right hp⟩, hwaits'⟩
    rw [hg]

theorem Discarded.step {s t : State} {ds : List EntryId} {a : EntryId} (h : Discarded s ds t) (ha : a ∉ ds)
    (hlive : entryLive s.entries[a] = true) : Discarded s (ds ++ [a]) (discardEntry t a) := by
  have hentry : t.entries[a] = s.entries[a] := by rw [h.entries, if_neg ha]
  have hlive' : entryLive t.entries[a] = true := by rw [hentry]; exact hlive
  refine ⟨?_, fun d => ?_, ?_, fun k hk => ?_, fun k hk => ?_, ?_⟩
  · rw [← h.timeBase]
    simp only [discardEntry_frame]
  · rw [discardEntry_entries hlive', get_put, h.entries]
    simp only [List.mem_append, List.mem_singleton]
    by_cases hd : d = a
    · rw [if_pos hd, if_pos (.inr hd)]
    · rw [if_neg hd]
      simp only [hd, or_false]
  · have hlines : (discardEntry t a).lines =
        t.lines.map (fun l => if l.line == s.entries[a].line then { l with mergeRef := none } else l) := by
      rw [discardEntry_live hlive', hentry, setMergeRef]
      show (mapFences _ _).lines.map _ = _
      simp only [mapFences_frame, setEntry_lines, recordEntryLoss_frame]
    rw [hlines, h.lines, List.map_map]
    refine List.map_congr_left fun l _ => ?_
    have hnew : (∃ e ∈ ds ++ [a], s.entries[e].line = l.line) ↔
        (∃ e ∈ ds, s.entries[e].line = l.line) ∨ s.entries[a].line = l.line := by
      simp only [List.mem_append, List.mem_singleton, or_and_right, exists_or, exists_eq_left]
    rw [if_congr hnew rfl rfl, Function.comp_apply]
    by_cases hold : ∃ e ∈ ds, s.entries[e].line = l.line
    · simp only [hold, true_or, if_true, ite_self]
    · simp only [hold, false_or, if_false, beq_iff_eq, eq_comm (a := l.line)]
  · have hsame := h.settled k hk
    have hk' : t.fences[k].state ≠ .waiting := by rw [hsame]; exact hk
    rw [discardEntry_fences hlive', recordEntryLoss_fences, if_neg fun hp => hk' hp.1]
    exact (if_neg fun hw => hk' (beq_iff_eq.1 hw)).trans hsame
  · rw [discardEntry_fences hlive', recordEntryLoss_fences]
    exact (h.waiting k hk).step ha hk hentry
  · rw [List.map_append]
    refine RecordsHanded.trans h.records ?_
    have hrecord := discardEntry_records hlive'
    rw [hentry, h.timeBase] at hrecord
    exact hrecord

/-- The discards of a list of entries: those that are OPEN or DRAIN_PENDING, in the list's order. -/
theorem discarded_foldl (s : State) {es : List EntryId} (h : es.Nodup) :
    Discarded s (es.filter (fun e => entryLive s.entries[e])) (es.foldl discardEntry s) := by
  induction es using List.reverseRecOn with
  | nil => exact .nil s
  | append_singleton es a ih =>
    obtain ⟨hes, -, hdisjoint⟩ := List.nodup_append.1 h
    have hnot : a ∉ es := fun ha => hdisjoint a ha a (List.mem_singleton_self a) rfl
    have ih := ih hes
    have hout : a ∉ es.filter (fun e => entryLive s.entries[e]) := fun ha => hnot (List.mem_of_mem_filter ha)
    rw [List.foldl_append, List.foldl_cons, List.foldl_nil, List.filter_append, List.filter_singleton]
    by_cases hlive : entryLive s.entries[a] = true
    · rw [hlive]
      exact ih.step hout hlive
    · rw [discardEntry_other (by rw [ih.entries, if_neg hout]; exact hlive), eq_false_of_ne_true hlive]
      simpa only [List.append_nil, cond_false] using ih

/-! ## RESTART, field by field (R167) -/

/-- The entries that RESTART discards, in ascending order. -/
def discards (s : State) : List EntryId := (List.finRange 16).filter (fun e => entryLive s.entries[e])

theorem mem_discards {s : State} {e : EntryId} : e ∈ discards s ↔ entryLive s.entries[e] = true := by
  simp only [discards, List.mem_filter, List.mem_finRange, true_and]

/-- The state before the discards: slots ended or marked, queues and lists of waiting confirmations empty. -/
def slotsEnded (s : State) : State := restartSlots (setPart s .restarting)

theorem slotsEnded_entries (s : State) (e : EntryId) : (slotsEnded s).entries[e] = { s.entries[e] with waiting := [] } :=
  get_tabulate _ e

theorem slotsEnded_lines (s : State) : (slotsEnded s).lines = s.lines := rfl

theorem slotsEnded_fences (s : State) : (slotsEnded s).fences = s.fences := rfl

theorem restarted_eq (s : State) :
    restarted s = mapFences (clearUrgency (clearLines (discardAll (slotsEnded s)))) restartFence := rfl

theorem slotsEnded_discarded (s : State) : Discarded (slotsEnded s) (discards s) (discardAll (slotsEnded s)) := by
  have hsame : discards s = (List.finRange 16).filter (fun e => entryLive (slotsEnded s).entries[e]) :=
    List.filter_congr fun e _ => by
      rw [slotsEnded_entries]
      rfl
  rw [hsame]
  exact discarded_foldl (slotsEnded s) (List.nodup_finRange 16)

theorem restarted_entries (s : State) (e : EntryId) : (restarted s).entries[e] =
    if entryLive s.entries[e] = true then MergeEntry.free else { s.entries[e] with waiting := [] } := by
  rw [restarted_eq]
  simp only [mapFences_frame, clearUrgency_frame, clearLines_frame]
  rw [(slotsEnded_discarded s).entries, slotsEnded_entries]
  exact if_congr mem_discards rfl rfl

theorem restarted_records (s : State) : RecordsHanded s (restarted s)
    ((discards s).map (fun e => entryLoss .discarded s.entries[e] s.timeBase)) := by
  have hrecords := (slotsEnded_discarded s).records
  have hloss : (fun e => entryLoss .discarded (slotsEnded s).entries[e] (slotsEnded s).timeBase) =
      fun e : EntryId => entryLoss .discarded s.entries[e] s.timeBase := funext fun e => by
    rw [slotsEnded_entries]
    rfl
  rw [hloss] at hrecords
  have hrecords' : RecordsHanded s (discardAll (slotsEnded s))
      ((discards s).map (fun e => entryLoss .discarded s.entries[e] s.timeBase)) := hrecords
  rw [restarted_eq]
  exact RecordsHanded.congr hrecords' (by simp) (by simp) (by simp) (by simp)

/-- A line entry is left where its reference stands and no entry of its line is discarded (R61, R73, R101). -/
theorem mem_restarted_lines {s : State} {l : LineEntry} : l ∈ (restarted s).lines ↔ ∃ x ∈ s.lines,
    (∀ e : EntryId, entryLive s.entries[e] = true → s.entries[e].line ≠ x.line) ∧ x.mergeRef.isSome = true ∧
    l = { x with list := [] } := by
  have hlines : (restarted s).lines = ((discardAll (slotsEnded s)).lines.map
      (fun l => { l with list := [] })).filter (fun l => l.mergeRef.isSome) := by
    rw [restarted_eq]
    simp only [mapFences_frame, clearUrgency_frame, clearLines, setLines_lines]
  have hkept (x : LineEntry) : (∃ e ∈ discards s, (slotsEnded s).entries[e].line = x.line) ↔
      ∃ e : EntryId, entryLive s.entries[e] = true ∧ s.entries[e].line = x.line := by
    simp only [mem_discards, slotsEnded_entries]
  rw [hlines, (slotsEnded_discarded s).lines, slotsEnded_lines, List.map_map, List.mem_filter, List.mem_map]
  constructor
  · rintro ⟨⟨x, hx, rfl⟩, hsome⟩
    rw [Function.comp_apply, if_congr (hkept x) rfl rfl] at hsome ⊢
    split at hsome
    · cases hsome
    · next hno =>
      rw [if_neg hno]
      exact ⟨x, hx, fun e he hl => hno ⟨e, he, hl⟩, hsome, rfl⟩
  · rintro ⟨x, hx, hno, hsome, rfl⟩
    refine ⟨⟨x, hx, ?_⟩, hsome⟩
    rw [Function.comp_apply, if_neg fun h => ?_]
    obtain ⟨e, he, hl⟩ := (hkept x).1 h
    exact hno e he hl

theorem findLine_line {s : State} {a : LineAddr} {x : LineEntry} (h : findLine s a = some x) : x.line = a := by
  have hline := List.find?_some h
  exact beq_iff_eq.1 hline

/-- Where no line has two entries, a line entry is the one found for its line. -/
theorem findLine_of_mem {s : State} (h : (s.lines.map (·.line)).Nodup) {l : LineEntry} (hl : l ∈ s.lines) :
    findLine s l.line = some l := by
  cases hf : findLine s l.line with
  | none => exact absurd (beq_self_eq_true l.line) (List.find?_eq_none.1 hf l hl)
  | some x =>
    have hline : x.line = l.line := findLine_line hf
    rw [List.inj_on_of_nodup_map h (List.mem_of_find?_eq_some hf) hl hline]

/-- With one entry for each line, what is left is an entry with an empty list for each DRAINING merge entry. -/
theorem mem_restarted_lines_of_mergeLaw {s : State} (h : MergeLaw s) (l : LineEntry) : l ∈ (restarted s).lines ↔
    ∃ e : EntryId, s.entries[e].state = .draining ∧
      l = { line := s.entries[e].line, list := [], mergeRef := some e } := by
  obtain ⟨hnd, hheld, hnamed, -, -, -⟩ := h
  rw [mem_restarted_lines]
  constructor
  · rintro ⟨x, hx, hno, hsome, rfl⟩
    obtain ⟨e, he⟩ := Option.isSome_iff_exists.1 hsome
    have href : mergeRef s x.line = some e := by rw [mergeRef, findLine_of_mem hnd hx]; exact he
    obtain ⟨hstate, hline⟩ := hnamed x.line e href
    refine ⟨e, ?_, by rw [hline, ← he]⟩
    have hlive : ¬ entryLive s.entries[e] = true := fun hl => hno e hl hline
    rw [entryLive_iff] at hlive
    cases hs : s.entries[e].state <;> simp_all
  · rintro ⟨e, hdrain, rfl⟩
    have href := hheld e (by rw [hdrain]; simp)
    obtain ⟨x, hx, he⟩ := Option.bind_eq_some_iff.1 href
    have hline : x.line = s.entries[e].line := findLine_line hx
    refine ⟨x, List.mem_of_find?_eq_some hx, fun d hd hl => ?_, by rw [he]; rfl, by rw [hline, he]⟩
    have hstate : s.entries[d].state = .opened ∨ s.entries[d].state = .drainPending := entryLive_iff.1 hd
    have hother := hheld d (by rcases hstate with h | h <;> rw [h] <;> simp)
    rw [hl, hline, href, Option.some.injEq] at hother
    subst hother
    rw [hdrain] at hstate
    exact hstate.elim nofun nofun

theorem restarted_fences (s : State) (k : FenceId) :
    (restarted s).fences[k] = restartFence (discardAll (slotsEnded s)).fences[k] := by
  rw [restarted_eq, Fin.getElem_fin, get_mapFences]
  simp only [clearUrgency_frame, clearLines_frame, Fin.getElem_fin]

theorem restarted_fence_settled {s : State} {k : FenceId} (h : s.fences[k].state ≠ .waiting) :
    (restarted s).fences[k] = s.fences[k] := by
  have hsame := (slotsEnded_discarded s).settled k h
  rw [restarted_fences, hsame, slotsEnded_fences]
  unfold restartFence
  split
  · next hw => exact absurd hw h
  · rfl
  · rfl

theorem restarted_fence_waiting {s : State} {k : FenceId} (h : s.fences[k].state = .waiting) :
    let g := (restarted s).fences[k]
    (g.faulted = true ↔ s.fences[k].faulted = true ∨ ∃ e, entryLive s.entries[e] = true ∧ e ∈ s.fences[k].waitEntries ∧
      s.entries[e].contributors[s.fences[k].initiator] = some .posted) ∧
    g = { s.fences[k] with
      state := .completed, waitSlots := [], waitFences := [], waitEntries := [], faulted := g.faulted
      status := some (if g.faulted then .fenceFaulted else .errAbort) } := by
  intro g
  obtain ⟨hg, hmark, -⟩ := (slotsEnded_discarded s).waiting k h
  rw [slotsEnded_fences] at hg hmark
  have hstate : (discardAll (slotsEnded s)).fences[k].state = .waiting := by rw [hg]; exact h
  have hcompleted : g = { (discardAll (slotsEnded s)).fences[k] with
      state := .completed, waitSlots := [], waitFences := [], waitEntries := []
      status := some (if (discardAll (slotsEnded s)).fences[k].faulted then .fenceFaulted else .errAbort) } := by
    rw [show g = restartFence (discardAll (slotsEnded s)).fences[k] from restarted_fences s k, restartFence, hstate]
  have hfaulted : g.faulted = (discardAll (slotsEnded s)).fences[k].faulted := by rw [hcompleted]
  refine ⟨?_, ?_⟩
  · rw [hfaulted, hmark]
    simp only [mem_discards, slotsEnded_entries]
  · rw [hfaulted, hcompleted, hg]

theorem restartSlot_eq (x : Slot) : restartSlot x =
    if (x.state == .queued || x.state == .waitDrain) = true then
      { x with state := .done, status := some .errAbort, effCls := none }
    else if x.state = .issued then { x with abort := true } else x := by
  unfold restartSlot
  cases h : x.state <;> simp

theorem restarted_frame (s : State) :
    (restarted s).part = .restarting ∧ (restarted s).resetLine = s.resetLine ∧ (restarted s).holdLine = s.holdLine ∧
    (restarted s).tagTable = s.tagTable ∧ (restarted s).refusals = s.refusals ∧ (restarted s).arrival = s.arrival ∧
    (restarted s).balances = s.balances ∧ (restarted s).refillCount = s.refillCount ∧ (restarted s).periodInForce =
    s.periodInForce ∧ (restarted s).pointer = s.pointer ∧ (restarted s).tags = s.tags ∧ (restarted s).fenceOrder =
    s.fenceOrder ∧ (restarted s).readout = s.readout ∧ (restarted s).responses = s.responses ∧ (restarted s).staged =
    s.staged ∧ (restarted s).active = s.active ∧ (restarted s).epoch = s.epoch ∧ (restarted s).shortFrame =
    s.shortFrame ∧ (restarted s).timeBase = s.timeBase ∧ (restarted s).counters = s.counters ∧ (restarted s).answer =
    s.answer ∧ (restarted s).issued = s.issued ∧ (restarted s).taken = s.taken ∧ (restarted s).mgmt = s.mgmt ∧
    (restarted s).pending = s.pending := by
  simp [restarted]

theorem restartSlot_newlyDone (x : Slot) :
    ((restartSlot x).state == .done && x.state != .done) = (x.state == .queued || x.state == .waitDrain) := by
  rw [Bool.eq_iff_iff]
  unfold restartSlot
  cases h : x.state <;> simp [h]

/-- The slots that RESTART ends become ready in arrival order, then the WAITING fences (R15, R43, R153). -/
theorem readyRefs_restarted (s : State) : readyRefs s (restarted s) =
    (s.arrival.filter (fun i => s.slots[i].state == .queued || s.slots[i].state == .waitDrain)).map .slot ++
      (s.fenceOrder.filter (fun k => s.fences[k].state == .waiting)).map .fence := by
  have hslots : newlyDone s (restarted s) =
      fun i => s.slots[i].state == .queued || s.slots[i].state == .waitDrain := funext fun i => by
    rw [newlyDone, restarted_slots, restartSlot_newlyDone]
  have hfences : newlyCompleted s (restarted s) = fun k => s.fences[k].state == .waiting := funext fun k => by
    by_cases h : s.fences[k].state = .waiting
    · rw [newlyCompleted, (restarted_fence_waiting h).2, h]
      rfl
    · rw [newlyCompleted, restarted_fence_settled h, beq_eq_false_iff_ne.2 h]
      cases s.fences[k].state <;> rfl
  simp only [readyRefs, restarted_frame, hslots, hfences]

theorem restarted_urgent (s : State) : (restarted s).urgent = Vector.replicate 6 false := by
  rw [restarted_eq]
  simp only [mapFences_frame]
  rfl

/-- What RESTART leaves besides what its steps change; its causes are those of the records it hands. -/
theorem restarted_fields (s : State) : ∃ fr fo, restarted s = { s with
    part := .restarting, slots := (restarted s).slots, queues := Vector.replicate 6 [], entries := (restarted s).entries
    lines := (restarted s).lines, urgent := Vector.replicate 6 false, fences := (restarted s).fences
    faults := (restarted s).faults, overflow := (restarted s).overflow
    causes := { s.causes with faultRecorded := fr, faultOverflow := fo } } := by
  have hentry (t : State) (e : EntryId) : ∃ fr fo, (discardEntry t e).causes =
      { t.causes with faultRecorded := fr, faultOverflow := fo } := by
    by_cases h : entryLive t.entries[e] = true
    · obtain ⟨fl, ov, fr, fo, fe, hloss⟩ := recordEntryLoss_fields t e .discarded
      refine ⟨fr, fo, ?_⟩
      rw [discardEntry_live h]
      simp only [setMergeRef_frame, mapFences_frame, setEntry_causes, hloss]
    · exact ⟨_, _, by rw [discardEntry_other h]⟩
  have hcauses : ∃ fr fo, (discardAll (slotsEnded s)).causes =
      { s.causes with faultRecorded := fr, faultOverflow := fo } :=
    forEach_keeps (P := fun t : State => ∃ fr fo, t.causes = { s.causes with faultRecorded := fr, faultOverflow := fo })
      (fun t e ⟨fr, fo, h⟩ => by
        obtain ⟨fr', fo', h'⟩ := hentry t e
        exact ⟨fr', fo', by rw [h', h]⟩) ⟨_, _, rfl⟩
  obtain ⟨fr, fo, h⟩ := hcauses
  have hcauses : (restarted s).causes = { s.causes with faultRecorded := fr, faultOverflow := fo } := by
    rw [← h, restarted_eq]
    simp only [mapFences_frame, clearUrgency_frame, clearLines_frame]
  exact ⟨fr, fo, state_ext (by simp [hcauses, restarted_urgent, restarted_queues, restarted_frame])⟩

/-- A RESTARTING part's empty conditions reach one cause only (R171). -/
theorem conclude_restarting_fields {s u : State} (h : u.part = .restarting) : ∃ p q b r, conclude s u =
    { u with
      responses := u.responses ++ readyRefs s u, part := p, pointer := q, balances := b
      causes := { u.causes with restarted := r } } := by
  have hpart : (publish s u).part = .restarting := by
    rw [← h]
    simp only [publish_frame]
  rw [conclude, judgeEmpty_restarting hpart]
  split <;> exact ⟨_, _, _, _, rfl⟩

theorem restartPart_busy {s : State} (h : s.part = .restarting) : restartPart s = answerBusy s := by
  simp only [restartPart, h]

/-- With RESET released and the part not RESTARTING, RESTART takes its six steps and judges the empty conditions. -/
theorem restartPart_eq {s : State} (h : s.part ≠ .restarting) :
    restartPart s = answerPart (conclude s (restarted s)) := by
  cases hp : s.part with
  | running => simp only [restartPart, hp]; rfl
  | draining => simp only [restartPart, hp]; rfl
  | quiescent => simp only [restartPart, hp]; rfl
  | restarting => exact absurd hp h

/-- Settles O48: the six steps field by field, then the empty conditions of a RESTARTING part. -/
theorem restartCommand : Obligations.RestartCommand := by
  intro s hr
  have hexec : exec .restart s = .next (restartPart s) := by rw [exec_released hr, effect]
  refine ⟨fun hp => by rw [hexec, restartPart_busy hp]; rfl, ?_⟩
  intro hp live ended lost
  have ht : restartPart s = answerPart (conclude s (restarted s)) := restartPart_eq hp
  obtain ⟨fr, fo, hu⟩ := restarted_fields s
  obtain ⟨p, q, b, rs, hc⟩ := conclude_restarting_fields (s := s) (restarted_frame s).1
  have hheld : NothingHeld (restartPart s) ↔ NothingHeld (publish s (restarted s)) :=
    Iff.trans (by simp only [ht, NothingHeld, answerPart_frame, conclude]) nothingHeld_judgeEmpty
  have hpart : (publish s (restarted s)).part = .restarting := by
    simp only [publish_frame, restarted_frame]
  have hfind (a : LineAddr) : findLine (restartPart s) a = findLine (restarted s) a := by
    simp only [findLine, ht, answerPart_frame, conclude_frame]
  refine ⟨_, hexec, fun i => ?_, fun k => ⟨?_, ?_⟩, fun e => ?_, fun l hl => ?_, fun e he => ?_, fun hlaw l => ?_,
    fun k hk => ?_, fun k hk => ?_, ?_, ?_, fun hn => ?_, fun hn => ?_, ?_, ?_⟩
  · simp only [ht, answerPart_frame, conclude_frame]
    rw [restarted_slots, restartSlot_eq]
  · simp [ht, restarted_queues]
  · simp [ht, restarted_urgent]
  · simp only [ht, answerPart_frame, conclude_frame]
    rw [restarted_entries]
  · simp only [ht, answerPart_frame, conclude_frame] at hl
    obtain ⟨x, -, -, hsome, rfl⟩ := mem_restarted_lines.1 hl
    exact ⟨rfl, hsome⟩
  · rw [hfind]
    refine List.find?_eq_none.2 fun l hl hline => ?_
    obtain ⟨x, -, hno, -, rfl⟩ := mem_restarted_lines.1 hl
    exact hno e he (beq_iff_eq.1 hline).symm
  · simp only [ht, answerPart_frame, conclude_frame]
    exact mem_restarted_lines_of_mergeLaw hlaw l
  · simp only [ht, answerPart_frame, conclude_frame]
    exact restarted_fence_settled hk
  · simp only [ht, answerPart_frame, conclude_frame]
    exact restarted_fence_waiting hk
  · exact RecordsHanded.congr (restarted_records s) (by simp [ht]) (by simp [ht])
      (by simp [ht, hc]) (by simp [ht, hc])
  · simp only [ht, answerPart_frame]
    rw [conclude_responses, readyRefs_restarted, List.append_assoc, (show (restarted s).responses = s.responses by rw [hu])]
  · have hstays : conclude s (restarted s) = publish s (restarted s) := judgeEmpty_held fun h => hn (hheld.2 h)
    rw [ht, hstays, answerPart, hpart]
    simp only [answerMgmt_frame, publish_frame]
    rw [hu]
    exact ⟨rfl, rfl, rfl, rfl, rfl⟩
  · have hcompletes := judgeEmpty_restarting hpart
    rw [if_pos (nothingHeld_iff.1 (hheld.1 hn))] at hcompletes
    have hactive : (publish s (restarted s)).active = s.active := by rw [hu]; rfl
    rw [ht, conclude, hcompletes, hactive]
    exact ⟨rfl, fun k => get_tabulate _ k, rfl, rfl, rfl⟩
  · rw [ht, hc, hu]
    rfl
  · exact state_ext (by simp)

/-! ## The lines through a slot's grant (R59, R72) -/

theorem findLine_congr {s t : State} (h : t.lines = s.lines) (a : LineAddr) : findLine t a = findLine s a := by
  rw [findLine, findLine, h]

theorem mergeRef_eq_of_findLine {s t : State} {a : LineAddr} (h : findLine t a = findLine s a) :
    mergeRef t a = mergeRef s a := by rw [mergeRef, mergeRef, h]

/-- Whether the removal of the line's idle entries keeps the line entry. -/
def lineKept (a : LineAddr) (l : LineEntry) : Bool := !(l.line == a && l.list.isEmpty && l.mergeRef.isNone)

theorem tidyLine_lines (s : State) (a : LineAddr) : (tidyLine s a).lines = s.lines.filter (lineKept a) := rfl

theorem lineKept_iff {a : LineAddr} {l : LineEntry} (h : l.line = a) :
    lineKept a l = true ↔ ¬ (l.list = [] ∧ l.mergeRef = none) := by
  simp [lineKept, h, Option.isSome_iff_ne_none, or_iff_not_imp_left]

/-- The line entry found stays where it holds a slot or a reference. -/
theorem findLine_tidyLine_of_busy {s : State} {a : LineAddr} {l : LineEntry} (h : findLine s a = some l)
    (busy : ¬ (l.list = [] ∧ l.mergeRef = none)) : findLine (tidyLine s a) a = some l := by
  have hkept := (lineKept_iff (findLine_line h)).2 busy
  obtain ⟨hl, older, younger, hlines, hold⟩ := List.find?_eq_some_iff_append.1 h
  have htidied := tidyLine_lines s a
  rw [hlines, List.filter_append, List.filter_cons_of_pos hkept] at htidied
  exact List.find?_eq_some_iff_append.2 ⟨hl, _, _, htidied, fun x hx => hold x (List.mem_of_mem_filter hx)⟩

/-- No entry of the line is left with neither a slot nor a reference (R59). -/
theorem busy_of_findLine_tidyLine {s : State} {a : LineAddr} {l : LineEntry} (h : findLine (tidyLine s a) a = some l) :
    ¬ (l.list = [] ∧ l.mergeRef = none) := by
  have hmem := List.mem_of_find?_eq_some h
  rw [tidyLine_lines] at hmem
  exact (lineKept_iff (findLine_line h)).1 (List.mem_filter.1 hmem).2

theorem tidyLine_mergeRef {s : State} (h : (s.lines.map (·.line)).Nodup) (a : LineAddr) :
    mergeRef (tidyLine s a) a = mergeRef s a := by
  have hfound {l : LineEntry} (hl : findLine (tidyLine s a) a = some l) : findLine s a = some l := by
    have hmem : l ∈ s.lines := List.mem_of_mem_filter (List.mem_of_find?_eq_some hl)
    rw [← findLine_line hl]
    exact findLine_of_mem h hmem
  unfold mergeRef
  cases hs : findLine s a with
  | none =>
    cases ht : findLine (tidyLine s a) a with
    | none => rfl
    | some l => exact absurd ((hfound ht).symm.trans hs) nofun
  | some l =>
    by_cases hidle : l.list = [] ∧ l.mergeRef = none
    · cases ht : findLine (tidyLine s a) a with
      | none => exact hidle.2.symm
      | some x =>
        have hx := (hfound ht).symm.trans hs
        rw [hx]
    · rw [findLine_tidyLine_of_busy hs hidle]

/-- No entry of the line lists the slot. -/
def Unlisted (s : State) (a : LineAddr) (i : SlotId) : Prop := ∀ l ∈ s.lines, l.line = a → i ∉ l.list

theorem Unlisted.lineList {s : State} {a : LineAddr} {i : SlotId} (h : Unlisted s a i) : i ∉ lineList s a := by
  unfold Machine.lineList
  cases hf : findLine s a with
  | none => exact List.not_mem_nil
  | some l => exact h l (List.mem_of_find?_eq_some hf) (findLine_line hf)

theorem ungrouped_leaveLine (s : State) (i : SlotId) :
    (ungrouped s i).lines = (leaveLine s s.slots[i].line i).lines := by
  simp only [ungrouped, recompute_frame]
  rfl

theorem ungrouped_unlisted (s : State) (i : SlotId) : Unlisted (ungrouped s i) s.slots[i].line i := by
  intro l hl ha
  rw [ungrouped_leaveLine] at hl
  obtain ⟨x, -, rfl⟩ := List.mem_map.1 hl
  dsimp only at ha ⊢
  split
  · exact fun hi => (mem_without.1 hi).2 rfl
  · next hx =>
    rw [if_neg hx] at ha
    exact absurd (beq_iff_eq.2 ha) hx

theorem setMergeRef_unlisted {s : State} {a : LineAddr} {i : SlotId} (h : Unlisted s a i) (r : Option EntryId) :
    Unlisted (setMergeRef s a r) a i := by
  intro l hl ha
  obtain ⟨x, hx, rfl⟩ := List.mem_map.1 hl
  dsimp only at ha ⊢
  split
  · next hline => exact h x hx (beq_iff_eq.1 hline)
  · next hline =>
    rw [if_neg hline] at ha
    exact h x hx ha

theorem ungrouped_line (s : State) (i j : SlotId) : (ungrouped s i).slots[j].line = s.slots[j].line := by
  rw [ungrouped_slots]

/-- An action reaches the lines only by the reference that an allocation sets. -/
theorem acted_lines (s : State) (i : SlotId) (a : Action) :
    ((∀ m, a ≠ .allocate m) ∧ (acted s i a).lines = (ungrouped s i).lines) ∨
    ∃ m, a = .allocate m ∧ (acted s i a).lines = (setMergeRef (ungrouped s i) s.slots[i].line (some m)).lines := by
  cases a with
  | allocate m =>
    refine .inr ⟨m, rfl, ?_⟩
    show (doAllocate (ungrouped s i) i m).lines = _
    simp only [doAllocate, drainCmdIfDraining_frame, doMerge_frame]
    rw [ungrouped_line]
    rfl
  | forward m | overlayRead m | plainRead | merge m | mergeWait m | direct =>
    exact .inl ⟨nofun, by simp only [acted, doAction, doForward_frame, doOverlay_frame, doPlainRead_frame,
      doMerge_frame, doMergeWait_frame, doDirect_frame]⟩

theorem acted_unlisted (s : State) (i : SlotId) (a : Action) : Unlisted (acted s i a) s.slots[i].line i := by
  have hstart := ungrouped_unlisted s i
  rcases acted_lines s i a with ⟨-, h⟩ | ⟨m, -, h⟩
  · rw [Unlisted, h]
    exact hstart
  · rw [Unlisted, h]
    exact setMergeRef_unlisted hstart _

theorem acted_findLine_ne (s : State) (i : SlotId) (a : Action) {b : LineAddr} (hb : b ≠ s.slots[i].line) :
    findLine (acted s i a) b = findLine s b := by
  obtain ⟨-, -, hleft⟩ := leaveLine_spec s s.slots[i].line i
  have hungrouped : findLine (ungrouped s i) b = findLine s b :=
    (findLine_congr (ungrouped_leaveLine s i) b).trans (hleft b hb)
  rcases acted_lines s i a with ⟨-, h⟩ | ⟨m, -, h⟩
  · rw [findLine_congr h, hungrouped]
  · obtain ⟨-, -, hset⟩ := setMergeRef_spec (ungrouped s i) s.slots[i].line (some m)
    rw [findLine_congr h, hset b hb, hungrouped]

theorem acted_mergeRef (s : State) (i : SlotId) {a : Action} (ha : ∀ m, a ≠ .allocate m) :
    mergeRef (acted s i a) s.slots[i].line = mergeRef s s.slots[i].line := by
  obtain ⟨-, hleft, -⟩ := leaveLine_spec s s.slots[i].line i
  rcases acted_lines s i a with ⟨-, h⟩ | ⟨m, hm, -⟩
  · exact (mergeRef_eq_of_findLine (findLine_congr (h.trans (ungrouped_leaveLine s i)) _)).trans hleft
  · exact absurd hm (ha m)

/-! ## The account of a grant: charge, pointer and urgency (R108, R111, R118, R119) -/

/-- What a grant does after its action and its line: the charge, the pointer and its class's urgency. -/
def account (s : State) (k cls : ClassId) (n : Nat) (rr : Bool) : State :=
  judgeUrgency (movePointer (charge s k n) cls rr) k

theorem grantSlot_eq (s : State) (i : SlotId) (a : Action) (cls : ClassId) (rr : Bool) : grantSlot s i a cls rr =
    account (followLine (acted s i a) i s.slots[i].line a) s.slots[i].cls cls (chargeOf s.slots[i] a) rr := rfl

theorem urgentNow_congr {s t : State} (queues : t.queues = s.queues) (slots : t.slots = s.slots)
    (active : t.active = s.active) (k : ClassId) : urgentNow t k = urgentNow s k := by
  rw [urgentNow, urgentNow, queues, slots, active]

/-- What the account leaves. -/
theorem account_frame (s : State) (k cls : ClassId) (n : Nat) (rr : Bool) :
    (account s k cls n rr).slots = s.slots ∧ (account s k cls n rr).queues = s.queues ∧
    (account s k cls n rr).lines = s.lines ∧ (account s k cls n rr).entries = s.entries ∧
    (account s k cls n rr).tags = s.tags ∧ (account s k cls n rr).fences = s.fences ∧
    (account s k cls n rr).issued = s.issued ∧ (account s k cls n rr).active = s.active ∧
    (account s k cls n rr).responses = s.responses ∧ (account s k cls n rr).arrival = s.arrival ∧
    (account s k cls n rr).fenceOrder = s.fenceOrder := by
  simp [account]

theorem account_urgent (s : State) (k cls : ClassId) (n : Nat) (rr : Bool) :
    (account s k cls n rr).urgent = put s.urgent k (urgentNow (account s k cls n rr) k) := by
  have hnow : urgentNow (account s k cls n rr) k = urgentNow (movePointer (charge s k n) cls rr) k :=
    urgentNow_congr (by simp [account]) (by simp [account]) (by simp [account]) k
  rw [hnow, account, (judgeUrgency_spec _ k).1]
  simp only [movePointer_frame, charge_frame]

theorem account_pointer (s : State) (k cls : ClassId) (n : Nat) (rr : Bool) :
    (account s k cls n rr).pointer = if rr then cls + 1 else s.pointer := by
  simp only [account, judgeUrgency_frame, movePointer]
  cases rr <;> simp

theorem account_balances (s : State) (k cls : ClassId) (n : Nat) (rr : Bool) : (account s k cls n rr).balances =
    put s.balances k
      (if s.active.classes[k].metered = 1 then max (-64) (s.balances[k] - n) else s.balances[k]) := by
  simp only [account, judgeUrgency_frame, movePointer_frame, (charge_spec s k n).1]
  exact congrArg (put s.balances k) (if_congr flagOf_iff rfl rfl)

theorem account_perClass (s : State) (k cls : ClassId) (n : Nat) (rr : Bool) (c : ClassId) :
    (account s k cls n rr).counters.perClass[c] = { s.counters.perClass[c] with
      bytesCharged := satAdd s.counters.perClass[c].bytesCharged (if c = k then n else 0)
      urgentEpisodes := satAdd s.counters.perClass[c].urgentEpisodes
        (if c = k ∧ (account s k cls n rr).urgent[k] = true ∧ s.urgent[k] = false then 1 else 0) } := by
  have hcharge : (movePointer (charge s k n) cls rr).counters.perClass = put s.counters.perClass k
      { s.counters.perClass[k] with bytesCharged := satAdd s.counters.perClass[k].bytesCharged n } := by
    simp only [movePointer_frame, (charge_spec s k n).2]
  have hurgent : (movePointer (charge s k n) cls rr).urgent = s.urgent := by simp
  have hset : (account s k cls n rr).urgent[k] = urgentNow (movePointer (charge s k n) cls rr) k := by
    simp only [account, (judgeUrgency_spec _ k).1, get_put_self]
  have hjudged := (judgeUrgency_spec (movePointer (charge s k n) cls rr) k).2
  rw [hset]
  rw [hurgent] at hjudged
  by_cases hbegins : urgentNow (movePointer (charge s k n) cls rr) k = true ∧ s.urgent[k] = false
  · rw [if_pos hbegins] at hjudged
    rw [account, hjudged]
    dsimp only
    rw [hcharge, get_put_self, get_put, get_put]
    by_cases hc : c = k
    · rw [if_pos hc, if_pos hc, if_pos ⟨hc, hbegins⟩, hc]
    · rw [if_neg hc, if_neg hc, if_neg hc, if_neg fun h => hc h.1, satAdd_zero, satAdd_zero]
  · rw [if_neg hbegins] at hjudged
    have hnone : ¬ (c = k ∧ urgentNow (movePointer (charge s k n) cls rr) k = true ∧ s.urgent[k] = false) :=
      fun h => hbegins h.2
    rw [account, hjudged, hcharge, get_put]
    simp only [hnone, if_false, satAdd_zero]
    by_cases hc : c = k
    · rw [if_pos hc, if_pos hc, hc]
    · rw [if_neg hc, if_neg hc, satAdd_zero]

theorem account_counters (s : State) (k cls : ClassId) (n : Nat) (rr : Bool) :
    (account s k cls n rr).counters = { s.counters with perClass := (account s k cls n rr).counters.perClass } := by
  have hcharge : (movePointer (charge s k n) cls rr).counters =
      { s.counters with perClass := (movePointer (charge s k n) cls rr).counters.perClass } := by
    simp only [movePointer_frame, (charge_spec s k n).2]
  have hjudged := (judgeUrgency_spec (movePointer (charge s k n) cls rr) k).2
  rw [account, hjudged]
  split
  · rw [hcharge]
  · exact hcharge

/-! ## The counters of an action and of the line's classes (R71, R200) -/

theorem addReason_counters (s : State) (e : EntryId) (r : Reason) : (addReason s e r).counters = s.counters := rfl

theorem mergeInto_counters (s : State) (i : SlotId) (e : EntryId) : (mergeInto s i e).counters =
    { s.counters with mergedWrites := satAdd s.counters.mergedWrites 1 } := by
  unfold mergeInto
  dsimp only
  split <;> rfl

theorem doPlainRead_counters (s : State) (i : SlotId) : (doPlainRead s i).counters = s.counters := by
  simp [doPlainRead]

theorem doAllocate_counters (s : State) (i : SlotId) (e : EntryId) : (doAllocate s i e).counters =
    { s.counters with mergedWrites := satAdd s.counters.mergedWrites 1 } := by
  simp only [doAllocate, drainCmdIfDraining_frame, doMerge, finishOk_frame, mergeInto_counters, setMergeRef_frame,
    setEntry_counters]

/-- Each action counts in one counter of its own at most (R86, R87, R78). -/
theorem doAction_counters (s : State) (i : SlotId) (a : Action) : (doAction s i a).counters = { s.counters with
    forwardedReads := satAdd s.counters.forwardedReads (match a with | .forward _ => 1 | _ => 0)
    overlayReads := satAdd s.counters.overlayReads (match a with | .overlayRead _ => 1 | _ => 0)
    mergedWrites := satAdd s.counters.mergedWrites
      (match a with | .merge _ | .mergeWait _ | .allocate _ => 1 | _ => 0) } := by
  cases a with
  | forward e => simp only [satAdd_zero]; rfl
  | overlayRead e =>
    simp only [satAdd_zero]
    show (countOverlay (doPlainRead _ i)).counters = _
    rw [countOverlay, setCounters_counters, doPlainRead_counters]
    rfl
  | plainRead =>
    simp only [satAdd_zero]
    exact doPlainRead_counters s i
  | merge e =>
    simp only [satAdd_zero]
    show (doMerge s i e).counters = _
    simp only [doMerge, finishOk_frame, mergeInto_counters]
  | mergeWait e =>
    simp only [satAdd_zero]
    show (doMergeWait s i e).counters = _
    simp only [doMergeWait, addReason_counters, awaitDrain_frame, mergeInto_counters]
  | allocate e =>
    simp only [satAdd_zero]
    exact doAllocate_counters s i e
  | direct =>
    simp only [satAdd_zero]
    show (doDirect s i).counters = s.counters
    simp only [doDirect_frame]

theorem ungrouped_counters (s : State) (i : SlotId) :
    (ungrouped s i).counters = { s.counters with perClass := (ungrouped s i).counters.perClass } := by
  obtain ⟨sl, ct, h⟩ := recompute_fields (dequeue s i) s.slots[i].line
  rw [ungrouped, h]
  simp only [dequeue_frame]

theorem ungrouped_perClass (s : State) (i : SlotId) (c : ClassId) : (ungrouped s i).counters.perClass[c] =
    { s.counters.perClass[c] with promotions := (ungrouped s i).counters.perClass[c].promotions } := by
  rw [ungrouped, recompute, foldl_setEffective_perClass]
  simp only [dequeue_frame]

/-- PROMOTIONS rises by the slots left on the line that rise. -/
theorem ungrouped_promotions {s : State} {i : SlotId} (h : (lineList s s.slots[i].line).Nodup) (c : ClassId) :
    (ungrouped s i).counters.perClass[c].promotions = satAdd s.counters.perClass[c].promotions
      ((without i (lineList s s.slots[i].line)).countP (rises s (ungrouped s i) c)) := by
  have hlist : lineList (dequeue s i) s.slots[i].line = without i (lineList s s.slots[i].line) := by
    rw [dequeue_lists, if_pos rfl]
  have hnd : (lineList (dequeue s i) s.slots[i].line).Nodup := hlist ▸ h.filter _
  have hfst := effectiveClasses_fst (dequeue s i).slots (lineList (dequeue s i) s.slots[i].line)
  have hpair (p) (hp : p ∈ effectiveClasses (dequeue s i).slots (lineList (dequeue s i) s.slots[i].line)) :
      promotes (dequeue s i).slots c p = rises s (ungrouped s i) c p.1 := by
    have hmem : p.1 ∈ without i (lineList s s.slots[i].line) := by
      rw [← hlist, ← hfst]
      exact List.mem_map_of_mem hp
    have hne : p.1 ≠ i := (mem_without.1 hmem).2
    have heff : (ungrouped s i).slots[p.1].effCls = some p.2 := recompute_effCls hnd hp
    simp only [promotes, rises, heff, dequeue_slots, get_put_ne _ _ hne]
  have hcount : (effectiveClasses (dequeue s i).slots (lineList (dequeue s i) s.slots[i].line)).countP
      (promotes (dequeue s i).slots c) =
      (without i (lineList s s.slots[i].line)).countP (rises s (ungrouped s i) c) := by
    rw [← hlist]
    conv => rhs; rw [← hfst, List.countP_map]
    exact List.countP_congr fun p hp => by rw [hpair p hp]; rfl
  have hcounters : (dequeue s i).counters = s.counters := by simp only [dequeue_frame]
  rw [ungrouped, recompute, foldl_setEffective_promotions (by rwa [hfst]), hcount, hcounters]
  rfl

/-! ## Every grant of a slot (R119) -/

theorem acts_ungrouped (s : State) (i : SlotId) (a : Action) : Acts (ungrouped s i) (acted s i a) i :=
  doAction_acts (ungrouped s i) i a

theorem exec_grant_slot {s : State} {i : SlotId} {a : Action} {cls : ClassId} {rr : Bool} (hr : s.resetLine = false)
    (h : choose s = some (.slot i a cls rr)) : exec .grant s = .next (publish s (grantSlot s i a cls rr)) := by
  rw [exec_released hr, effect, nextSlotGrant, h]

theorem grantSlot_slots (s : State) (i : SlotId) (a : Action) (cls : ClassId) (rr : Bool) :
    (grantSlot s i a cls rr).slots = (acted s i a).slots := by
  simp only [grantSlot_eq, account_frame, followLine_frame]

theorem grantSlot_lines (s : State) (i : SlotId) (a : Action) (cls : ClassId) (rr : Bool) :
    (grantSlot s i a cls rr).lines = (tidyLine (acted s i a) s.slots[i].line).lines := by
  have hpressure (t : State) : (pressureIfAllocated t a).lines = t.lines := by simp
  have haccount (t : State) (k : ClassId) (n : Nat) : (account t k cls n rr).lines = t.lines := by
    simp only [account_frame]
  rw [grantSlot_eq, haccount, followLine, tidyLine_lines, hpressure, tidyLine_lines]
  simp only [joinIfMerged_frame, judgeStrict_frame]

theorem grantSlot_findLine (s : State) (i : SlotId) (a : Action) (cls : ClassId) (rr : Bool) (b : LineAddr) :
    findLine (grantSlot s i a cls rr) b = findLine (tidyLine (acted s i a) s.slots[i].line) b :=
  findLine_congr (grantSlot_lines s i a cls rr) b

theorem grantSlot_slots_ne (s : State) {i j : SlotId} (a : Action) (cls : ClassId) (rr : Bool) (h : j ≠ i) :
    (grantSlot s i a cls rr).slots[j] = (ungrouped s i).slots[j] := by
  rw [grantSlot_slots]
  exact (acts_ungrouped s i a).others j h

theorem grantSlot_unlisted (s : State) (i : SlotId) (a : Action) (cls : ClassId) (rr : Bool) :
    i ∉ lineList (grantSlot s i a cls rr) s.slots[i].line := by
  have hacted := acted_unlisted s i a
  rw [lineList_eq_of_findLine (grantSlot_findLine s i a cls rr _)]
  exact Unlisted.lineList fun l hl => hacted l (List.mem_of_mem_filter hl)

/-- Where no line has two entries, the line keeps the rest of its list. -/
theorem grantSlot_lineList {s : State} (h : (s.lines.map (·.line)).Nodup) (i : SlotId) (a : Action) (cls : ClassId)
    (rr : Bool) : lineList (grantSlot s i a cls rr) s.slots[i].line = without i (lineList s s.slots[i].line) := by
  obtain ⟨hnd, hsame⟩ := (acts_ungrouped s i a).lines (ungrouped_lines s i ▸ h)
  rw [lineList_eq_of_findLine (grantSlot_findLine s i a cls rr _), tidyLine_lists hnd, hsame, ungrouped_lists,
    if_pos rfl]

theorem grantSlot_mergeRef {s : State} (h : (s.lines.map (·.line)).Nodup) (i : SlotId) {a : Action}
    (ha : ∀ m, a ≠ .allocate m) (cls : ClassId) (rr : Bool) :
    mergeRef (grantSlot s i a cls rr) s.slots[i].line = mergeRef s s.slots[i].line := by
  obtain ⟨hnd, -⟩ := (acts_ungrouped s i a).lines (ungrouped_lines s i ▸ h)
  rw [mergeRef_eq_of_findLine (grantSlot_findLine s i a cls rr _), tidyLine_mergeRef hnd, acted_mergeRef s i ha]

/-- A line left with neither a slot nor a reference has no entry (R59). -/
theorem grantSlot_findLine_idle {s : State} {i : SlotId} {a : Action} {cls : ClassId} {rr : Bool}
    (hl : lineList (grantSlot s i a cls rr) s.slots[i].line = [])
    (hm : mergeRef (grantSlot s i a cls rr) s.slots[i].line = none) :
    findLine (grantSlot s i a cls rr) s.slots[i].line = none := by
  cases hf : findLine (grantSlot s i a cls rr) s.slots[i].line with
  | none => rfl
  | some l =>
    have hbusy := busy_of_findLine_tidyLine ((grantSlot_findLine s i a cls rr _).symm.trans hf)
    rw [lineList, hf] at hl
    rw [mergeRef, hf] at hm
    exact absurd ⟨hl, hm⟩ hbusy

/-- The slots left on the line hold the effective classes of R68. -/
theorem grantSlot_effectiveOn {s : State} {i : SlotId} (h : (s.lines.map (·.line)).Nodup)
    (hnd : (lineList s s.slots[i].line).Nodup) (a : Action) (cls : ClassId) (rr : Bool) :
    EffectiveOn (grantSlot s i a cls rr) s.slots[i].line := by
  have hgroup : lineList (dequeue s i) s.slots[i].line = without i (lineList s s.slots[i].line) := by
    rw [dequeue_lists, if_pos rfl]
  have hlist : lineList (ungrouped s i) s.slots[i].line = without i (lineList s s.slots[i].line) := by
    rw [ungrouped_lists, if_pos rfl]
  have heffective : EffectiveOn (ungrouped s i) s.slots[i].line := recompute_effectiveOn (hgroup ▸ hnd.filter _)
  refine heffective.congr ((grantSlot_lineList h i a cls rr).trans hlist.symm) fun j hj => ?_
  rw [hlist] at hj
  rw [grantSlot_slots_ne s a cls rr (mem_without.1 hj).2]
  exact ⟨rfl, rfl, rfl⟩

theorem grantSlot_perClass (s : State) (i : SlotId) (a : Action) (cls : ClassId) (rr : Bool) (c : ClassId) :
    let t := grantSlot s i a cls rr
    let k := s.slots[i].cls
    t.counters.perClass[c] = { s.counters.perClass[c] with
      bytesCharged := satAdd s.counters.perClass[c].bytesCharged (if c = k then chargeOf s.slots[i] a else 0)
      urgentEpisodes := satAdd s.counters.perClass[c].urgentEpisodes
        (if c = k ∧ t.urgent[k] = true ∧ s.urgent[k] = false then 1 else 0)
      promotions := (ungrouped s i).counters.perClass[c].promotions } := by
  intro t k
  have hperClass : (followLine (acted s i a) i s.slots[i].line a).counters.perClass =
      (ungrouped s i).counters.perClass := by
    simp only [followLine_frame, acted, doAction_counters]
  have hurgent : (followLine (acted s i a) i s.slots[i].line a).urgent = s.urgent := by simp [acted, ungrouped]
  have ht := grantSlot_eq s i a cls rr
  rw [show t = _ from ht, account_perClass, hperClass, hurgent, ungrouped_perClass]

/-- PROMOTIONS rises by the slots left on the line that rise (R71). -/
theorem grantSlot_promotions {s : State} {i : SlotId} (hnd : (lineList s s.slots[i].line).Nodup) (a : Action)
    (cls : ClassId) (rr : Bool) (c : ClassId) : (grantSlot s i a cls rr).counters.perClass[c].promotions =
      satAdd s.counters.perClass[c].promotions
        ((without i (lineList s s.slots[i].line)).countP (rises s (grantSlot s i a cls rr) c)) := by
  rw [grantSlot_perClass, ungrouped_promotions hnd c]
  refine congrArg (satAdd _) (List.countP_congr fun j hj => ?_)
  rw [rises, rises, grantSlot_slots_ne s a cls rr (mem_without.1 hj).2]

theorem grantSlot_counters (s : State) (i : SlotId) (a : Action) (cls : ClassId) (rr : Bool) :
    (grantSlot s i a cls rr).counters = { s.counters with
      perClass := (grantSlot s i a cls rr).counters.perClass
      forwardedReads := satAdd s.counters.forwardedReads (match a with | .forward _ => 1 | _ => 0)
      overlayReads := satAdd s.counters.overlayReads (match a with | .overlayRead _ => 1 | _ => 0)
      mergedWrites := satAdd s.counters.mergedWrites
        (match a with | .merge _ | .mergeWait _ | .allocate _ => 1 | _ => 0) } := by
  have hcounters : (followLine (acted s i a) i s.slots[i].line a).counters = (doAction (ungrouped s i) i a).counters := by
    simp only [followLine_frame, acted]
  rw [grantSlot_eq, account_counters, hcounters, doAction_counters, ungrouped_counters]

/-- Settles O28: the slot leaves its queue and line, its action reaches no other slot, and the account follows. -/
theorem grantBookkeeping : Obligations.GrantBookkeeping := by
  intro s i a e rr hr hchoose k line n
  let w := followLine (acted s i a) i line a
  have ht : grantSlot s i a e rr = account w k e (chargeOf s.slots[i] a) rr := grantSlot_eq s i a e rr
  have hw : w.queues = put s.queues k (without i s.queues[k]) ∧ w.balances = s.balances ∧ w.active = s.active ∧
      w.pointer = s.pointer ∧ w.urgent = s.urgent := by
    simp [w, acted, ungrouped, dequeue_queues, k]
  obtain ⟨hqueues, hbalances, hactive, hpointer, hurgent⟩ := hw
  have hn : chargeOf s.slots[i] a = n := by cases a <;> rfl
  refine ⟨_, exec_grant_slot hr hchoose, ?_, ?_, grantSlot_unlisted s i a e rr, ?_, fun hnd => ⟨?_, fun ha => ?_,
    grantSlot_findLine_idle, fun hnd' => ⟨?_, fun c => ?_⟩⟩, fun b hb => ?_, ?_, ?_, ?_, fun c => ?_, ?_, fun j hj => ?_,
    fun j hj hoff => ?_, ?_⟩
  · simp only [publish_frame, ht, account_frame]
    exact hqueues
  · obtain ⟨-, -, -, -, -, -, heff, -⟩ := (acts_ungrouped s i a).self
    show (grantSlot s i a e rr).slots[i].effCls = none
    rw [grantSlot_slots, heff, ungrouped_effCls (.inl rfl), if_pos rfl]
  · have hcapture := nextSlotGrant_capturesStay s i
    rw [nextSlotGrant, hchoose] at hcapture
    exact hcapture
  · exact grantSlot_lineList hnd i a e rr
  · exact grantSlot_mergeRef hnd i ha e rr
  · exact grantSlot_effectiveOn hnd hnd' a e rr
  · exact grantSlot_promotions hnd' a e rr c
  · exact (grantSlot_findLine s i a e rr b).trans ((findLine_tidyLine_ne _ hb).trans (acted_findLine_ne s i a hb))
  · simp only [publish_frame]
    rw [ht, account_balances, hn, hbalances, hactive]
  · simp only [publish_frame]
    rw [ht, account_pointer, hpointer]
  · show (grantSlot s i a e rr).urgent = put s.urgent k (urgentNow (grantSlot s i a e rr) k)
    rw [ht, ← hurgent]
    exact account_urgent w k e _ rr
  · have hcount := grantSlot_perClass s i a e rr c
    have hpromotions : (grantSlot s i a e rr).counters.perClass[c].promotions =
        (ungrouped s i).counters.perClass[c].promotions := by rw [hcount]
    rw [hn, ← hpromotions] at hcount
    exact hcount
  · exact grantSlot_counters s i a e rr
  · show (grantSlot s i a e rr).slots[j] =
      { s.slots[j] with effCls := (grantSlot s i a e rr).slots[j].effCls }
    rw [grantSlot_slots_ne s a e rr hj, ungrouped_slots]
  · show (grantSlot s i a e rr).slots[j] = s.slots[j]
    have hkept := ungrouped_slots s i j
    rw [ungrouped_effCls (.inr hoff), if_neg hj] at hkept
    rw [grantSlot_slots_ne s a e rr hj, hkept]
  · exact state_ext (by simp)

/-! ## A forward (R38, R86) -/

theorem firstOffer_offer {s : State} {classes : List ClassId} {p : ClassId → Bool} {rr rr' : Bool} {i : SlotId}
    {a : Action} {cls : ClassId} (h : firstOffer s classes p rr = some (.slot i a cls rr')) :
    offer s cls = some (i, a) := by
  obtain ⟨e, -, he⟩ := List.exists_of_findSome?_eq_some h
  obtain ⟨⟨i', a'⟩, hoffer, heq⟩ := Option.map_eq_some_iff.1 he
  cases heq
  exact hoffer

/-- A slot that the arbiter chooses is what the class it is chosen at offers (R116, R117). -/
theorem choose_offer {s : State} {i : SlotId} {a : Action} {cls : ClassId} {rr : Bool}
    (h : choose s = some (.slot i a cls rr)) : offer s cls = some (i, a) := by
  have hdrains : demandedDrain s ≠ some (.slot i a cls rr) ∧ backgroundDrain s ≠ some (.slot i a cls rr) := by
    unfold demandedDrain backgroundDrain
    split <;> simp
  simp only [choose, Option.or_eq_some_iff] at h
  rcases h with h | ⟨-, h | ⟨-, h | ⟨-, h | ⟨-, h⟩⟩⟩⟩
  · exact absurd h hdrains.1
  · exact firstOffer_offer h
  · exact firstOffer_offer h
  · exact absurd h hdrains.2
  · exact firstOffer_offer h

theorem offer_arrival {s : State} {cls : ClassId} {i : SlotId} {a : Action} (h : offer s cls = some (i, a)) :
    i ∈ s.arrival := by
  obtain ⟨j, hmem, hj⟩ := List.exists_of_findSome?_eq_some h
  obtain ⟨b, -, hpair⟩ := Option.map_eq_some_iff.1 hj
  cases hpair
  exact List.mem_of_mem_filter hmem

theorem grantableAction_actionOf {s : State} {i : SlotId} {a : Action} (h : grantableAction s i = some a) :
    actionOf s i = some a := by
  unfold grantableAction at h
  split at h
  · exact (Option.filter_eq_some_iff.1 h).1
  · cases h

/-- A forward is from the entry that the slot's line refers to. -/
theorem actionOf_forward {s : State} {i : SlotId} {m : EntryId} (h : actionOf s i = some (.forward m)) :
    mergeRef s s.slots[i].line = some m := by
  have hread {x : Slot} {e : EntryId} (h : readLive s x e = some (.forward m)) : e = m := by
    unfold readLive at h
    split at h
    · cases h
    · split at h
      · cases h; rfl
      · cases h
  have hwrite {x : Slot} {e : EntryId} : writeLive x e ≠ .forward m := by
    unfold writeLive
    split <;> exact nofun
  have halone {x : Slot} : writeAlone s x ≠ some (.forward m) := by
    unfold writeAlone
    split
    · cases firstFreeEntry s <;> exact nofun
    · exact nofun
    · exact nofun
  unfold actionOf at h
  dsimp only at h
  split at h
  · next e he =>
    rw [he]
    split at h
    · split at h
      · rw [hread h]
      · exact absurd (Option.some.inj h) hwrite
    · split at h
      · cases h
      · cases h
  · split at h
    · cases h
    · exact absurd h halone

theorem forwarded_slot (s : State) (i : SlotId) (m : EntryId) : (acted s i (.forward m)).slots[i] =
    { s.slots[i] with
      state := .done, status := some .ok, effCls := none
      data := tabulate (fun l => if s.slots[i].offset ≤ l ∧ l.val < s.slots[i].offset + s.slots[i].length
        then s.entries[m].data[l] else 0) } := by
  have hentries : (ungrouped s i).entries = s.entries := by simp [ungrouped]
  have hgroup := ungrouped_slots s i i
  rw [ungrouped_effCls (.inl rfl), if_pos rfl] at hgroup
  have hdata (o : Lane) (n : Nat) (d : LineData) : keepLanes (laneRange o n) d =
      tabulate (fun l => if o ≤ l ∧ l.val < o + n then d[l] else 0) := vector_ext fun l => by
    rw [get_tabulate, Fin.getElem_fin, get_keepLanes, get_laneRange]
    simp only [decide_eq_true_eq]
    rfl
  have hacted : (acted s i (.forward m)).slots[i] = { (ungrouped s i).slots[i] with
      state := .done, status := some .ok
      data := keepLanes (requestedLanes (ungrouped s i).slots[i]) (ungrouped s i).entries[m].data } := by
    show (countForward (finishOk _ i)).slots[i] = _
    simp only [countForward_frame]
    rw [finishOk, get_setSlot, if_pos rfl, get_setSlot, if_pos rfl]
  rw [hacted, hentries, requestedLanes, hdata, hgroup]

/-- The entry that a forward answers from keeps the line's entry found, whatever else the table holds. -/
theorem forward_findLine {s : State} {i : SlotId} {m : EntryId} (h : mergeRef s s.slots[i].line = some m)
    (cls : ClassId) (rr : Bool) :
    findLine (grantSlot s i (.forward m) cls rr) s.slots[i].line = findLine (acted s i (.forward m)) s.slots[i].line := by
  have hkept : mergeRef (acted s i (.forward m)) s.slots[i].line = mergeRef s s.slots[i].line := acted_mergeRef s i nofun
  obtain ⟨l, hl, hm⟩ := Option.bind_eq_some_iff.1 (hkept.trans h)
  rw [grantSlot_findLine, hl]
  exact findLine_tidyLine_of_busy hl fun hidle => nomatch hm.symm.trans hidle.2

/-- A forward reaches no tag, op, fence record or arrival; a STRICT READ that it leaves leading demands (R72). -/
theorem forward_fields (s : State) (i : SlotId) (m : EntryId) (cls : ClassId) (rr : Bool) :
    let t := grantSlot s i (.forward m) cls rr
    t.tags = s.tags ∧ t.issued = s.issued ∧ t.fences = s.fences ∧
    t.entries = (judgeStrict (acted s i (.forward m)) s.slots[i].line).entries := by
  intro t
  have ht : t = account (tidyLine (judgeStrict (acted s i (.forward m)) s.slots[i].line) s.slots[i].line)
      s.slots[i].cls cls 0 rr := grantSlot_eq s i (.forward m) cls rr
  rw [ht]
  simp [account_frame, acted, doAction, ungrouped]

/-- Settles O29: the line keeps its reference and so its entry, and the slot's is the only reference made ready. -/
theorem forwardAnswersFromTheEntry : Obligations.ForwardAnswersFromTheEntry := by
  intro s i m e rr hr hchoose
  have hgrantable := choose_slot hchoose
  have hqueued := grantableAction_queued hgrantable
  have href := actionOf_forward (grantableAction_actionOf hgrantable)
  let line := s.slots[i].line
  let v := acted s i (.forward m)
  let t := grantSlot s i (.forward m) e rr
  have hslots : t.slots = v.slots := grantSlot_slots s i _ e rr
  have hself : t.slots[i] = _ := (congrArg (·[i]) hslots).trans (forwarded_slot s i m)
  obtain ⟨htags, hissued, hfences, hentries⟩ := forward_fields s i m e rr
  refine ⟨publish s t, readyRefs s t, exec_grant_slot hr hchoose, hself, ?_, fun ref => ?_, ?_, htags, hissued, hfences,
    fun d => ?_⟩
  · rw [publish_responses]
    simp [t]
  · cases ref with
    | slot j =>
      rw [slot_mem_readyRefs, Ref.slot.injEq]
      refine ⟨fun ⟨_, hd, hnew⟩ => ?_, fun hj => ?_⟩
      · by_contra hj
        rw [grantSlot_slots_ne s _ e rr hj, ungrouped_slots] at hd
        exact hnew hd
      · rw [hj, hself, hqueued]
        exact ⟨by simpa [t] using offer_arrival (choose_offer hchoose), rfl, nofun⟩
    | fence k =>
      rw [fence_mem_readyRefs, hfences]
      exact ⟨fun ⟨_, hc, hnew⟩ => absurd hc hnew, nofun⟩
    | refusal k => exact ⟨fun hm => absurd hm refusal_not_mem_readyRefs, nofun⟩
  · show t.counters.forwardedReads = _
    rw [grantSlot_counters]
  · have hv : v.entries = s.entries ∧ v.timeBase = s.timeBase := by simp [v, acted, doAction, ungrouped]
    have hvref : mergeRef v line = mergeRef s line := acted_mergeRef s i nofun
    have hlist : lineList t line = lineList v line := lineList_eq_of_findLine (forward_findLine href e rr)
    have hleading : leadingReads (publish s t) line = leadingReads v line := by
      show leadingReads t line = _
      rw [leadingReads, leadingReads, hlist, hslots]
    have hslots' : (publish s t).slots = v.slots := hslots
    show t.entries[d] = _
    rw [hentries, judgeStrict_entries, hvref, hv.1, hv.2, hleading, hslots']

end Sys2Proof.Machine

/-! PROOFS. Line ordering: the effective classes of a line, the arbiter's choice of a slot, the law of one entry for each
line, and the grants of line reads, merges and allocations. -/

namespace Sys2Proof.Machine

-- One proof at a time: elaborated in parallel they need more memory than the check has.
set_option Elab.async false

/-! ## The effective classes of a line (R67, R68, R71) -/

/-- The effective class that a slot holds; its own where it holds none. -/
def heldClass (s : State) (i : SlotId) : ClassId := s.slots[i].effCls.getD s.slots[i].cls

theorem heldClass_of_some {s : State} {i : SlotId} {c : ClassId} (h : s.slots[i].effCls = some c) :
    heldClass s i = c := by rw [heldClass, h]; rfl

/-- Each slot of a line that was computed again holds a class. -/
theorem recompute_heldClass {s : State} {a : LineAddr} (h : (lineList s a).Nodup) {x : SlotId} (hx : x ∈ lineList s a) :
    (recompute s a).slots[x].effCls = some (heldClass (recompute s a) x) := by
  rw [← effectiveClasses_fst s.slots (lineList s a)] at hx
  obtain ⟨p, hp, rfl⟩ := List.mem_map.1 hx
  have heff := recompute_effCls h hp
  rw [heldClass_of_some heff, heff]

theorem countP_effectiveClasses (slots : Vector Slot 48) (l : List SlotId) (q : SlotId → Bool) :
    (effectiveClasses slots l).countP (fun p => q p.1) = l.countP q := by
  conv => rhs; rw [← effectiveClasses_fst slots l, List.countP_map]
  rfl

/-- PROMOTIONS rises by the slots whose effective class rises from their own (R71). -/
theorem recompute_promotions {s : State} {a : LineAddr} (h : (lineList s a).Nodup) (k : ClassId) :
    (recompute s a).counters.perClass[k].promotions = satAdd s.counters.perClass[k].promotions
      ((lineList s a).countP (fun x => s.slots[x].cls == k && s.slots[x].effCls == some s.slots[x].cls &&
        decide (s.slots[x].cls < heldClass (recompute s a) x))) := by
  have hfst := effectiveClasses_fst s.slots (lineList s a)
  rw [← countP_effectiveClasses s.slots, recompute, foldl_setEffective_promotions (by rwa [hfst])]
  refine congrArg (satAdd _) (List.countP_congr fun p hp => ?_)
  have heff := heldClass_of_some (recompute_effCls h hp)
  rw [recompute] at heff
  rw [heff, promotes]
  simp only [Bool.and_eq_true, beq_iff_eq, decide_eq_true_eq, and_assoc]
  exact and_congr_right fun hk => by rw [hk]

/-- Settles O22: the classes are those that the line's slots then hold, and no other slot takes one. -/
theorem effectiveClassIsTheLargestBlocked : Obligations.EffectiveClassIsTheLargestBlocked := by
  intro s a t hnd ht
  subst ht
  refine ⟨heldClass (recompute s a), fun older x younger hl => ?_, fun x hx => recompute_slots_not_mem hx,
    recompute_promotions hnd, ?_⟩
  · have heffective := recompute_effectiveOn hnd older x younger (by rwa [recompute_lineList])
    have hcls : (recompute s a).slots[x].cls = s.slots[x].cls := by rw [recompute_slots]
    have hkind (j : SlotId) : (recompute s a).slots[j].kind = s.slots[j].kind := by rw [recompute_slots]
    have hx := recompute_heldClass hnd (x := x) (by rw [hl]; simp)
    simp only [hkind] at heffective
    obtain ⟨c, heff, hle, hall, hmax⟩ := heffective
    rw [hcls] at hle hmax
    rw [heldClass_of_some heff]
    refine ⟨by rw [← heff, ← recompute_slots], hle, fun b hb => ?_, hmax.imp_right ?_⟩
    · obtain ⟨d, hd, hbeff⟩ := hall b hb
      rwa [heldClass_of_some hbeff]
    · rintro ⟨b, hb, hbeff⟩
      exact ⟨b, hb, (heldClass_of_some hbeff).symm⟩
  · obtain ⟨sl, ct, h⟩ := recompute_fields s a
    rw [h]

/-! ## The action of a grant, in the terms of the statements (R62, R63, R77, R79 to R81, R85) -/

theorem readLive_eq_some {s : State} {x : Slot} {e : EntryId} {a : Action} : readLive s x e = some a ↔
    x.forwarding = .allowed ∧
      ((a = .forward e ∧ ∀ l : Lane, (requestedLanes x)[l] = true → s.entries[e].valid[l] = true) ∨
       (a = .overlayRead e ∧ ∃ l : Lane, (requestedLanes x)[l] = true ∧ s.entries[e].valid[l] = false)) := by
  unfold readLive
  cases x.forwarding with
  | strict => simp
  | allowed =>
    by_cases h : lanesWithin (requestedLanes x) s.entries[e].valid = true
    · have hall := lanesWithin_iff.1 h
      rw [if_pos h, Option.some.injEq]
      refine ⟨fun ha => ⟨rfl, .inl ⟨ha.symm, hall⟩⟩, ?_⟩
      rintro ⟨-, ⟨ha, -⟩ | ⟨-, l, hr, hv⟩⟩
      · exact ha.symm
      · rw [hall l hr] at hv
        cases hv
    · have hsome : ∃ l : Lane, (requestedLanes x)[l] = true ∧ s.entries[e].valid[l] = false := by
        rw [lanesWithin_iff] at h
        push Not at h
        simpa only [Bool.not_eq_true] using h
      rw [if_neg h, Option.some.injEq]
      refine ⟨fun ha => ⟨rfl, .inr ⟨ha.symm, hsome⟩⟩, ?_⟩
      rintro ⟨-, ⟨-, hall⟩ | ⟨ha, -⟩⟩
      · exact absurd (lanesWithin_iff.2 hall) h
      · exact ha.symm

theorem writeLive_eq {x : Slot} {e : EntryId} {a : Action} :
    writeLive x e = a ↔ (x.mode ≠ .confirm ∧ a = .merge e) ∨ (x.mode = .confirm ∧ a = .mergeWait e) := by
  unfold writeLive
  cases x.mode <;> simp [eq_comm]

theorem firstFreeEntry_eq_some {s : State} {e : EntryId} :
    firstFreeEntry s = some e ↔ s.entries[e].state = .free ∧ ∀ e' < e, s.entries[e'].state ≠ .free := by
  simp only [firstFreeEntry, firstWhere_eq_some, beq_iff_eq, beq_eq_false_iff_ne]

theorem writeAlone_eq_some {s : State} {x : Slot} {a : Action} : writeAlone s x = some a ↔
    (x.mode = .merge ∧ ∃ e, a = .allocate e ∧ s.entries[e].state = .free ∧ ∀ e' < e, s.entries[e'].state ≠ .free) ∨
    (x.mode ≠ .merge ∧ a = .direct) := by
  unfold writeAlone
  cases x.mode with
  | merge => simp only [Option.map_eq_some_iff, firstFreeEntry_eq_some]; grind
  | post => simp [eq_comm]
  | confirm => simp [eq_comm]

theorem actionFits_of_actionOf {s : State} {i : SlotId} {a : Action} (h : actionOf s i = some a) :
    ActionFits s i a := by
  unfold actionOf at h
  dsimp only at h
  split at h
  · next e href =>
    split at h
    · next hlive =>
      split at h
      · next hkind =>
        obtain ⟨hf, ⟨rfl, hall⟩ | ⟨rfl, hsome⟩⟩ := readLive_eq_some.1 h
        · exact ⟨hkind, hf, href, hlive, hall⟩
        · exact ⟨hkind, hf, href, hlive, hsome⟩
      · next hkind =>
        obtain ⟨hmode, rfl⟩ | ⟨hmode, rfl⟩ := writeLive_eq.1 (Option.some.inj h)
        · exact ⟨hkind, hmode, href, hlive⟩
        · exact ⟨hkind, hmode, href, hlive⟩
    · next hlive =>
      split at h
      · next hkind =>
        cases h
        refine ⟨hkind, fun e' he' => ?_⟩
        cases href.symm.trans he'
        simpa using hlive
      · cases h
  · next href =>
    split at h
    · next hkind =>
      cases h
      exact ⟨hkind, fun e' he' => nomatch href.symm.trans he'⟩
    · next hkind =>
      obtain ⟨hmode, e, rfl, hfree, hlow⟩ | ⟨hmode, rfl⟩ := writeAlone_eq_some.1 h
      · exact ⟨hkind, hmode, href, hfree, hlow⟩
      · exact ⟨hkind, hmode, href⟩

theorem actionOf_of_actionFits {s : State} {i : SlotId} {a : Action} (h : ActionFits s i a) :
    actionOf s i = some a := by
  cases a with
  | forward e =>
    obtain ⟨hkind, hf, href, hlive, hall⟩ := h
    simp only [actionOf, href, hlive, hkind, if_true]
    exact readLive_eq_some.2 ⟨hf, .inl ⟨rfl, hall⟩⟩
  | overlayRead e =>
    obtain ⟨hkind, hf, href, hlive, hsome⟩ := h
    simp only [actionOf, href, hlive, hkind, if_true]
    exact readLive_eq_some.2 ⟨hf, .inr ⟨rfl, hsome⟩⟩
  | plainRead =>
    obtain ⟨hkind, hdead⟩ := h
    cases href : mergeRef s s.slots[i].line with
    | none => simp only [actionOf, href, hkind]
    | some e => simp only [actionOf, href, hdead e href, hkind, Bool.false_eq_true, if_false]
  | merge e =>
    obtain ⟨hkind, hmode, href, hlive⟩ := h
    simp only [actionOf, href, hlive, hkind, if_true]
    exact congrArg some (writeLive_eq.2 (.inl ⟨hmode, rfl⟩))
  | mergeWait e =>
    obtain ⟨hkind, hmode, href, hlive⟩ := h
    simp only [actionOf, href, hlive, hkind, if_true]
    exact congrArg some (writeLive_eq.2 (.inr ⟨hmode, rfl⟩))
  | allocate e =>
    obtain ⟨hkind, hmode, href, hfree, hlow⟩ := h
    simp only [actionOf, href, hkind]
    exact writeAlone_eq_some.2 (.inl ⟨hmode, e, rfl, hfree, hlow⟩)
  | direct =>
    obtain ⟨hkind, hmode, href⟩ := h
    simp only [actionOf, href, hkind]
    exact writeAlone_eq_some.2 (.inr ⟨hmode, rfl⟩)

/-- The order condition of R62 is what the statements say of the older slots of the line. -/
theorem orderCondition_iff {s : State} {i : SlotId} : orderCondition s i = true ↔ OrderHolds s i := by
  have holder : olderOnLine s i = (lineList s s.slots[i].line).takeWhile (fun j => j ≠ i) := by
    rw [olderOnLine]
    congr 1
    funext j
    rw [bne, Bool.eq_iff_iff]
    simp
  have hkind (x : Slot) : (x.kind != .write) = true ↔ x.kind = .read := by cases x.kind <;> decide
  unfold orderCondition OrderHolds
  rw [holder]
  cases s.slots[i].kind with
  | read => simp only [List.all_eq_true, hkind, true_imp_iff, reduceCtorEq, false_imp_iff, and_true]
  | write => simp only [List.isEmpty_iff, true_imp_iff, reduceCtorEq, false_imp_iff, true_and]

/-- An op can be issued, or the action needs none (R113). -/
def OpReady (s : State) (a : Action) : Prop :=
  needsOp a = true → (∃ τ : TagId, s.tags[τ] = .free) ∧ s.holdLine = false

/-- The grants there are: of a QUEUED slot that is line-eligible, with the action that its line's merge state brings
and a FREE tag where that needs one. -/
theorem grantableAction_iff {s : State} {i : SlotId} {a : Action} : grantableAction s i = some a ↔
    s.slots[i].state = .queued ∧ OrderHolds s i ∧ ActionFits s i a ∧ OpReady s a := by
  have hready : (!needsOp a || canIssue s) = true ↔ OpReady s a := by
    rw [OpReady, ← canIssue_iff]
    cases needsOp a <;> simp
  have haction : actionOf s i = some a ↔ ActionFits s i a := ⟨actionFits_of_actionOf, actionOf_of_actionFits⟩
  unfold grantableAction
  by_cases hq : (s.slots[i].state == .queued && orderCondition s i) = true
  · rw [if_pos hq, Option.filter_eq_some_iff, haction, hready]
    rw [Bool.and_eq_true, beq_iff_eq, orderCondition_iff] at hq
    tauto
  · rw [if_neg hq]
    rw [Bool.and_eq_true, beq_iff_eq, orderCondition_iff] at hq
    exact ⟨nofun, fun h => absurd ⟨h.1, h.2.1⟩ hq⟩

/-! ## What a class offers, and which classes do (R105, R112, R116, R117) -/

theorem candidateAt_iff {s : State} {e : ClassId} {i : SlotId} : candidateAt s e i = true ↔
    s.slots[i].state = .queued ∧ (s.slots[i].cls = e ∨ s.slots[i].effCls = some e) := by
  simp only [candidateAt, Bool.and_eq_true, Bool.or_eq_true, beq_iff_eq]

/-- The class offers its oldest candidate that can be granted: no older one can. -/
theorem offer_spec {s : State} {e : ClassId} {i : SlotId} {a : Action} (h : offer s e = some (i, a)) :
    candidateAt s e i = true ∧ grantableAction s i = some a ∧ ∃ older younger, s.arrival = older ++ i :: younger ∧
      ∀ j ∈ older, candidateAt s e j = true → grantableAction s j = none := by
  obtain ⟨older, j, younger, hlist, hj, hold⟩ := List.findSome?_eq_some_iff.1 h
  obtain ⟨b, hb, hpair⟩ := Option.map_eq_some_iff.1 hj
  cases hpair
  obtain ⟨as, bs, harrival, has, hbs⟩ := List.filter_eq_append_iff.1 hlist
  obtain ⟨cs, ds, rfl, hcs, hcand, -⟩ := List.filter_eq_cons_iff.1 hbs
  refine ⟨hcand, hb, as ++ cs, ds, by rw [harrival, List.append_assoc], fun k hk hck => ?_⟩
  rcases List.mem_append.1 hk with hk | hk
  · exact Option.map_eq_none_iff.1 (hold k (by rw [← has]; exact List.mem_filter.2 ⟨hk, hck⟩))
  · exact absurd hck (hcs k hk)

theorem firstOffer_passes {s : State} {classes : List ClassId} {p : ClassId → Bool} {rr rr' : Bool} {i : SlotId}
    {a : Action} {cls : ClassId} (h : firstOffer s classes p rr = some (.slot i a cls rr')) : p cls = true := by
  obtain ⟨e, hmem, he⟩ := List.exists_of_findSome?_eq_some h
  obtain ⟨c, -, heq⟩ := Option.map_eq_some_iff.1 he
  cases heq
  exact (List.mem_filter.1 hmem).2

/-- No slot is chosen at a class that is held. -/
theorem choose_not_held {s : State} {i : SlotId} {a : Action} {cls : ClassId} {rr : Bool}
    (h : choose s = some (.slot i a cls rr)) : standing s cls ≠ .held := by
  have hdrains : demandedDrain s ≠ some (.slot i a cls rr) ∧ backgroundDrain s ≠ some (.slot i a cls rr) := by
    unfold demandedDrain backgroundDrain
    split <;> simp
  have hstands {c : Standing} (hc : (standing s cls == c) = true) (hne : c ≠ .held) : standing s cls ≠ .held := by
    rwa [beq_iff_eq.1 hc]
  simp only [choose, Option.or_eq_some_iff] at h
  rcases h with h | ⟨-, h | ⟨-, h | ⟨-, h | ⟨-, h⟩⟩⟩⟩
  · exact absurd h hdrains.1
  · exact bne_iff_ne.1 (Bool.and_eq_true_iff.1 (firstOffer_passes h)).2
  · exact hstands (firstOffer_passes h) nofun
  · exact absurd h hdrains.2
  · exact hstands (firstOffer_passes h) nofun

/-- A class is held while it is metered, its balance is spent and it is hard-capped (R105). -/
theorem standing_held_iff {s : State} {k : ClassId} : standing s k = .held ↔
    s.active.classes[k].metered = 1 ∧ s.balances[k] ≤ 0 ∧ s.active.classes[k].hardCap = 1 := by
  rw [← flagOf_iff, ← flagOf_iff]
  unfold standing metered hardCap
  by_cases hm : flagOf s.active.classes[k].metered = true
  · rw [if_neg (by rw [hm]; nofun)]
    by_cases hb : 0 < s.balances[k]
    · rw [if_pos hb]
      exact ⟨nofun, fun h => absurd h.2.1 (by omega)⟩
    · rw [if_neg hb]
      have hspent : s.balances[k] ≤ 0 := by omega
      split
      · next hc => exact ⟨fun _ => ⟨hm, hspent, hc⟩, fun _ => rfl⟩
      · next hc => exact ⟨nofun, fun h => absurd h.2.2 hc⟩
  · rw [if_pos (by simpa using hm)]
    exact ⟨nofun, fun h => absurd h.1 hm⟩

/-- Settles O26: what the class it is chosen at offers, from a class that is not held. -/
theorem chosenSlotIsEligible : Obligations.ChosenSlotIsEligible := by
  intro s i a e rr h
  obtain ⟨hcand, hgrant, older, younger, harrival, hold⟩ := offer_spec (choose_offer h)
  obtain ⟨hqueued, hclass⟩ := candidateAt_iff.1 hcand
  obtain ⟨-, horder, haction, hready⟩ := grantableAction_iff.1 hgrant
  refine ⟨hqueued, hclass, fun hheld => choose_not_held h (standing_held_iff.2 hheld), horder, haction, hready, older,
    younger, harrival, ?_⟩
  rintro j hj hqj hcj ⟨hoj, b, hab, hrb⟩
  have hgranted := grantableAction_iff.2 ⟨hqj, hoj, hab, hrb⟩
  rw [hold j hj (candidateAt_iff.2 ⟨hqj, hcj⟩)] at hgranted
  cases hgranted

/-! ## What the law of one entry for each line rests on (R57, R59, R60, R83, R129) -/

/-- A merge entry keeps its line and whether it is FREE, and a DRAINING one its state and its op's tag. -/
def EntryStays (m n : MergeEntry) : Prop :=
  (n.state = .free ↔ m.state = .free) ∧ n.line = m.line ∧
  (m.state = .draining → n.state = .draining ∧ n.memTag = m.memTag)

theorem EntryStays.refl (m : MergeEntry) : EntryStays m m := ⟨.rfl, rfl, fun h => ⟨h, rfl⟩⟩

theorem EntryStays.trans {m n o : MergeEntry} (h : EntryStays m n) (h' : EntryStays n o) : EntryStays m o := by
  obtain ⟨hfree, hline, hdrain⟩ := h
  obtain ⟨hfree', hline', hdrain'⟩ := h'
  refine ⟨hfree'.trans hfree, hline'.trans hline, fun hm => ?_⟩
  obtain ⟨hn, htag⟩ := hdrain hm
  obtain ⟨ho, htag'⟩ := hdrain' hn
  exact ⟨ho, htag'.trans htag⟩

/-- A reason reaches the state of an entry that is neither FREE nor DRAINING. -/
theorem withReason_stays (m : MergeEntry) (r : Reason) (now : Time) : EntryStays m (withReason m r now) := by
  by_cases h : entryLive m = true
  · rw [withReason_live h]
    have hstate := entryLive_iff.1 h
    exact ⟨by rcases hstate with h | h <;> simp [h], rfl, fun hd => by rw [hd] at hstate; exact hstate.elim nofun nofun⟩
  · rw [withReason_other (by simpa using h)]
    exact .refl m

/-- Every merge entry stays in this sense. -/
def EntriesStay (s t : State) : Prop := ∀ e : EntryId, EntryStays s.entries[e] t.entries[e]

theorem EntriesStay.of_eq {s t : State} (h : t.entries = s.entries := by simp) : EntriesStay s t := fun e => by
  rw [h]; exact .refl _

theorem EntriesStay.trans {s t u : State} (h : EntriesStay s t) (h' : EntriesStay t u) : EntriesStay s u :=
  fun e => (h e).trans (h' e)

theorem setEntry_entriesStay {s : State} {e : EntryId} {m : MergeEntry} (h : EntryStays s.entries[e] m) :
    EntriesStay s (setEntry s e m) := fun d => by
  rw [get_setEntry]
  split
  · next hd => exact hd ▸ h
  · exact .refl _

/-- No op of a merge entry is added. -/
def EntryOpsStay (s t : State) : Prop :=
  ∀ (τ : TagId) (op : OutstandingOp) (e : EntryId), t.tags[τ] = .outstanding op → op.source = .entry e →
    s.tags[τ] = .outstanding op

theorem EntryOpsStay.of_eq {s t : State} (h : t.tags = s.tags := by simp) : EntryOpsStay s t :=
  fun τ op e hop _ => by rwa [h] at hop

theorem EntryOpsStay.trans {s t u : State} (h : EntryOpsStay s t) (h' : EntryOpsStay t u) : EntryOpsStay s u :=
  fun τ op e hop hsrc => h τ op e (h' τ op e hop hsrc) hsrc

/-- A drain's tag belongs to its DRAINING entry (R129). -/
def DrainOpLaw (s : State) : Prop :=
  ∀ (τ : TagId) (op : OutstandingOp) (e : EntryId), s.tags[τ] = .outstanding op → op.source = .entry e →
    s.entries[e].state = .draining ∧ s.entries[e].memTag = some τ

theorem DrainOpLaw.kept {s t : State} (h : DrainOpLaw s) (entries : EntriesStay s t) (ops : EntryOpsStay s t) :
    DrainOpLaw t := fun τ op e hop hsrc => by
  obtain ⟨hstate, htag⟩ := h τ op e (ops τ op e hop hsrc) hsrc
  obtain ⟨-, -, hdrain⟩ := entries e
  obtain ⟨hstate', htag'⟩ := hdrain hstate
  exact ⟨hstate', htag'.trans htag⟩

/-- What the law says of the lines, read through the entry found for a line. -/
structure LineLaw (s : State) : Prop where
  nodup : (s.lines.map (·.line)).Nodup
  refs : ∀ (a : LineAddr) (e : EntryId), mergeRef s a = some e ↔ s.entries[e].state ≠ .free ∧ s.entries[e].line = a
  busy : ∀ (a : LineAddr) (l : LineEntry), findLine s a = some l → ¬ (l.list = [] ∧ l.mergeRef = none)
  queued : ∀ i : SlotId, s.slots[i].state = .queued → i ∈ lineList s s.slots[i].line

theorem mergeLaw_iff {s : State} : MergeLaw s ↔ LineLaw s ∧ DrainOpLaw s := by
  have hbusy {l : LineEntry} : (l.list ≠ [] ∨ l.mergeRef.isSome = true) ↔ ¬ (l.list = [] ∧ l.mergeRef = none) := by
    rw [Option.isSome_iff_ne_none]; tauto
  constructor
  · rintro ⟨hnd, hheld, hnamed, hidle, hqueued, hdrains⟩
    refine ⟨⟨hnd, fun a e => ⟨hnamed a e, ?_⟩, fun a l hl => ?_, hqueued⟩, hdrains⟩
    · rintro ⟨hstate, rfl⟩
      exact hheld e hstate
    · exact hbusy.1 (hidle l (List.mem_of_find?_eq_some hl))
  · rintro ⟨⟨hnd, hrefs, hidle, hqueued⟩, hdrains⟩
    exact ⟨hnd, fun e he => (hrefs _ e).2 ⟨he, rfl⟩, fun a e => (hrefs a e).1,
      fun l hl => hbusy.2 (hidle l.line l (findLine_of_mem hnd hl)), hqueued, hdrains⟩

/-- No slot becomes QUEUED, and one that stays so keeps its line. -/
def QueuedStay (s t : State) : Prop :=
  ∀ i : SlotId, t.slots[i].state = .queued → s.slots[i].state = .queued ∧ t.slots[i].line = s.slots[i].line

theorem QueuedStay.of_eq {s t : State} (h : t.slots = s.slots := by simp) : QueuedStay s t := fun i hi => by
  rw [h] at hi ⊢
  exact ⟨hi, rfl⟩

theorem QueuedStay.trans {s t u : State} (h : QueuedStay s t) (h' : QueuedStay t u) : QueuedStay s u := fun i hi => by
  obtain ⟨ht, hline'⟩ := h' i hi
  obtain ⟨hs, hline⟩ := h i ht
  exact ⟨hs, hline'.trans hline⟩

/-- The line entries stay, with what the law reads of slots, entries and ops. -/
structure MergeKept (s t : State) : Prop where
  lines : t.lines = s.lines
  queued : QueuedStay s t
  entries : EntriesStay s t
  ops : EntryOpsStay s t

theorem MergeKept.of_entries {s t : State} (entries : EntriesStay s t) (lines : t.lines = s.lines := by simp)
    (slots : t.slots = s.slots := by simp) (tags : t.tags = s.tags := by simp) : MergeKept s t :=
  ⟨lines, .of_eq slots, entries, .of_eq tags⟩

theorem MergeKept.of_eq {s t : State} (entries : t.entries = s.entries := by simp)
    (lines : t.lines = s.lines := by simp) (slots : t.slots = s.slots := by simp) (tags : t.tags = s.tags := by simp) :
    MergeKept s t := .of_entries (.of_eq entries) lines slots tags

theorem MergeKept.trans {s t u : State} (h : MergeKept s t) (h' : MergeKept t u) : MergeKept s u :=
  ⟨h'.lines.trans h.lines, h.queued.trans h'.queued, h.entries.trans h'.entries, h.ops.trans h'.ops⟩

theorem LineLaw.kept {s t : State} (law : LineLaw s) (lines : t.lines = s.lines) (queued : QueuedStay s t)
    (entries : EntriesStay s t) : LineLaw t := by
  have hfind (a) : findLine t a = findLine s a := findLine_congr lines a
  refine ⟨lines ▸ law.nodup, fun a e => ?_, fun a l hl => law.busy a l (hfind a ▸ hl), fun i hi => ?_⟩
  · obtain ⟨hfree, hline, -⟩ := entries e
    rw [mergeRef_eq_of_findLine (hfind a), law.refs, hline]
    exact and_congr_left' hfree.not.symm
  · obtain ⟨hs, hline⟩ := queued i hi
    rw [hline, lineList_eq_of_findLine (hfind _)]
    exact law.queued i hs

theorem MergeLaw.kept {s t : State} (h : MergeLaw s) (k : MergeKept s t) : MergeLaw t := by
  obtain ⟨law, hdrains⟩ := mergeLaw_iff.1 h
  exact mergeLaw_iff.2 ⟨law.kept k.lines k.queued k.entries, hdrains.kept k.entries k.ops⟩

/-! ### Reasons and the end of an event -/

theorem addReason_mergeKept (s : State) (e : EntryId) (r : Reason) : MergeKept s (addReason s e r) :=
  .of_entries (setEntry_entriesStay (withReason_stays _ r _))

theorem judgeStrict_mergeKept (s : State) (a : LineAddr) : MergeKept s (judgeStrict s a) := by
  unfold judgeStrict
  split
  · split
    · exact addReason_mergeKept ..
    · exact .of_eq
  · exact .of_eq

theorem judgePressure_mergeKept (s : State) : MergeKept s (judgePressure s) := by
  obtain ⟨e, -, -, h⟩ | ⟨-, h⟩ := judgePressure_spec s
  · rw [h]
    exact addReason_mergeKept ..
  · rw [h]
    exact .of_eq

theorem judgeAged_mergeKept (s : State) (e : EntryId) : MergeKept s (judgeAged s e) := by
  unfold judgeAged
  split
  · exact addReason_mergeKept ..
  · exact .of_eq

theorem judgeAllAged_mergeKept (s : State) : MergeKept s (judgeAllAged s) :=
  forEach_keeps (P := MergeKept s) (fun t e h => h.trans (judgeAged_mergeKept t e)) .of_eq

theorem demandAll_mergeKept (s : State) : MergeKept s (demandAll s) :=
  forEach_keeps (P := MergeKept s) (fun t e h => h.trans (addReason_mergeKept t e .drainCmd)) .of_eq

theorem demandFence_mergeKept (s : State) (es : List EntryId) : MergeKept s (demandFence s es) := by
  unfold demandFence
  induction es generalizing s with
  | nil => exact .of_eq
  | cons e es ih => exact (addReason_mergeKept s e .fence).trans (ih _)

theorem conclude_mergeKept (s t : State) : MergeKept t (conclude s t) := .of_eq

/-! ### The end of an op -/

theorem setTag_mergeKept {s : State} {τ : TagId} {x : TagRecord} (hx : ∀ op, x ≠ .outstanding op) :
    MergeKept s (setTag s τ x) where
  lines := rfl
  queued := .of_eq
  entries := .of_eq
  ops σ op e hop _ := by
    have hput : (setTag s τ x).tags[σ] = if σ = τ then x else s.tags[σ] := get_put ..
    rw [hput] at hop
    split at hop
    · exact absurd hop (hx op)
    · exact hop

theorem resolveSlot_mergeKept (s : State) (i : SlotId) (o : OpOutcome) : MergeKept s (resolveSlot s i o) where
  lines := by simp
  entries := .of_eq
  ops := .of_eq
  queued j hj := by
    have hline := (resolveSlot_capturesStay s i o j).2.2.2.1
    refine ⟨?_, hline⟩
    by_cases hji : j = i
    · subst hji
      unfold resolveSlot at hj
      split at hj
      · next hd =>
        rw [releaseTag_slots, if_pos rfl] at hj
        simp only [recordSlotLoss_frame] at hj
        rw [beq_iff_eq.1 hd] at hj
        split at hj <;> cases hj
      · rw [resolveIssued, get_setSlot, if_pos rfl] at hj
        cases hj
    · rwa [resolveSlot_slots_ne s o hji] at hj

theorem drainAnswered_mergeKept (s : State) (e : EntryId) (o : OpOutcome) : MergeKept s (drainAnswered s e o) := by
  have hslots (j : SlotId) : (drainAnswered s e o).slots[j] =
      if j ∈ s.entries[e].waiting then doneWith (writeStatus o) s.slots[j] else s.slots[j] := by
    rw [← resolveEntry_slots, resolveEntry_eq]
    simp only [freeEntry_frame]
  obtain ⟨sl, fl, ov, fr, fo, fe, h⟩ := drainAnswered_fields s e o
  have hentries : EntriesStay s (setEntry s e { s.entries[e] with waiting := [] }) :=
    setEntry_entriesStay (EntryStays.refl s.entries[e])
  refine ⟨by rw [h], fun j hj => ?_, by rw [h]; exact hentries, .of_eq (by rw [h])⟩
  rw [hslots] at hj ⊢
  split at hj
  · cases hj
  · next hw => exact ⟨hj, by rw [if_neg hw]⟩

theorem pressured_stays (reserve : Nat) (now : Time) (es : Vector MergeEntry 16) (d : EntryId) :
    EntryStays es[d] (pressured reserve now es)[d] := by
  rw [pressured, get_tabulate]
  split
  · exact withReason_stays ..
  · exact .refl _

theorem freeEntry_lines (s : State) (e : EntryId) :
    (freeEntry s e).lines = (tidyLine (setMergeRef s s.entries[e].line none) s.entries[e].line).lines := by
  simp only [freeEntry, judgePressure_frame]
  rfl

/-- The entry that becomes FREE is FREE, and every other stays. -/
theorem freeEntry_stays (s : State) (e d : EntryId) :
    if d = e then (freeEntry s e).entries[d].state = .free else EntryStays s.entries[d] (freeEntry s e).entries[d] := by
  have hp := pressured_stays s.active.mergeReserve.toNat s.timeBase (put s.entries e .free) d
  rw [freeEntry_entries]
  split
  · next hd =>
    obtain ⟨hfree, -, -⟩ := hp
    exact hfree.2 (by rw [hd, get_put_self]; rfl)
  · next hd => rwa [get_put_ne _ _ hd] at hp

/-- An entry that becomes FREE leaves its line without a reference, and the line without an entry where it is idle. -/
theorem freeEntry_lineLaw {s : State} (law : LineLaw s) {e : EntryId} (he : s.entries[e].state ≠ .free) :
    LineLaw (freeEntry s e) := by
  obtain ⟨hnone, hother, hlists⟩ := freeEntry_findLine s e
  refine ⟨((freeEntry_kept s e).lines law.nodup).1, fun a d => ?_, fun a l hl => ?_, fun i hi => ?_⟩
  · have hstays := freeEntry_stays s e d
    have hheld := (law.refs s.entries[e].line e).2 ⟨he, rfl⟩
    by_cases ha : a = s.entries[e].line
    · rw [ha, hnone]
      refine ⟨nofun, fun ⟨hfree', hline'⟩ => ?_⟩
      by_cases hd : d = e
      · rw [if_pos hd] at hstays
        exact absurd hstays hfree'
      · rw [if_neg hd] at hstays
        obtain ⟨hfree, hline, -⟩ := hstays
        have hheld' := (law.refs s.entries[e].line d).2 ⟨hfree.not.1 hfree', hline.symm.trans hline'⟩
        exact absurd (Option.some.inj (hheld'.symm.trans hheld)) hd
    · rw [mergeRef_eq_of_findLine (hother a ha), law.refs]
      by_cases hd : d = e
      · rw [if_pos hd] at hstays
        rw [hstays, hd]
        exact ⟨fun h => absurd h.2.symm ha, fun h => absurd rfl h.1⟩
      · rw [if_neg hd] at hstays
        obtain ⟨hfree, hline, -⟩ := hstays
        rw [hline]
        exact and_congr_left' hfree.not.symm
  · by_cases ha : a = s.entries[e].line
    · rw [findLine_congr (freeEntry_lines s e), ha] at hl
      exact busy_of_findLine_tidyLine hl
    · exact law.busy a l ((hother a ha).symm.trans hl)
  · rw [hlists law.nodup]
    simp only [freeEntry_frame] at hi ⊢
    exact law.queued i hi

/-- The entry of an op that ends becomes FREE, and the op's tag is given up. -/
theorem freeEntry_mergeLaw {s : State} (h : MergeLaw s) {τ : TagId} {op : OutstandingOp} {e : EntryId}
    (hop : s.tags[τ] = .outstanding op) (hsrc : op.source = .entry e) {x : TagRecord}
    (hx : ∀ op', x ≠ .outstanding op') : MergeLaw (setTag (freeEntry s e) τ x) := by
  obtain ⟨law, hdrains⟩ := mergeLaw_iff.1 h
  obtain ⟨hdraining, htag⟩ := hdrains τ op e hop hsrc
  have hfreed : LineLaw (freeEntry s e) := freeEntry_lineLaw law (by rw [hdraining]; nofun)
  refine mergeLaw_iff.2 ⟨hfreed.kept rfl .of_eq .of_eq, fun σ op' d hσ hd => ?_⟩
  have hput : (setTag (freeEntry s e) τ x).tags[σ] = if σ = τ then x else s.tags[σ] := by
    simp only [setTag, setTags_tags, freeEntry_frame, get_put]
  rw [hput] at hσ
  split at hσ
  · exact absurd hσ (hx op')
  · next hne =>
    obtain ⟨hstate, htag'⟩ := hdrains σ op' d hσ hd
    have hde : d ≠ e := by
      rintro rfl
      exact hne (Option.some.inj (htag'.symm.trans htag))
    have hstays := freeEntry_stays s e d
    rw [if_neg hde] at hstays
    obtain ⟨-, -, hdrain⟩ := hstays
    obtain ⟨hstate', htag''⟩ := hdrain hstate
    exact ⟨hstate', htag''.trans htag'⟩

/-- An op that ends, and its tag given up. -/
theorem resolve_mergeLaw {s : State} (h : MergeLaw s) {τ : TagId} {op : OutstandingOp}
    (hop : s.tags[τ] = .outstanding op) (o : OpOutcome) {x : TagRecord} (hx : ∀ op', x ≠ .outstanding op') :
    MergeLaw (setTag (resolveSource s op.source o) τ x) := by
  cases hsrc : op.source with
  | slot i => exact (h.kept (resolveSlot_mergeKept s i o)).kept (setTag_mergeKept hx)
  | entry e =>
    have hkept := drainAnswered_mergeKept s e o
    have htags : (drainAnswered s e o).tags = s.tags := by
      obtain ⟨sl, fl, ov, fr, fo, fe, hfields⟩ := drainAnswered_fields s e o
      rw [hfields]
    exact freeEntry_mergeLaw (h.kept hkept) (by rw [htags]; exact hop) hsrc hx

theorem timeOut_mergeLaw {s : State} (h : MergeLaw s) {τ : TagId} {op : OutstandingOp}
    (hop : s.tags[τ] = .outstanding op) : MergeLaw (timeOut s τ op) := by
  have hcount (t : State) : MergeKept t (raiseMemTimeout (countTimeout t)) := .of_eq
  exact (resolve_mergeLaw h hop .timeout (x := .quarantined) nofun).kept (hcount _)

theorem judgeTimeout_mergeLaw {s : State} (h : MergeLaw s) (τ : TagId) : MergeLaw (judgeTimeout s τ) := by
  unfold judgeTimeout
  split
  · next op hop =>
    split
    · exact timeOut_mergeLaw h hop
    · exact h
  · exact h
  · exact h

theorem judgeAllTimeouts_mergeLaw {s : State} (h : MergeLaw s) : MergeLaw (judgeAllTimeouts s) :=
  forEach_keeps (P := MergeLaw) (fun _ τ ht => judgeTimeout_mergeLaw ht τ) h

theorem complete_mergeLaw {s : State} (h : MergeLaw s) (tag : Nat) (o : OpOutcome) : MergeLaw (complete s tag o) := by
  have hstray : MergeLaw (strayCompletion s) := h.kept .of_eq
  have hlate (t : State) : MergeKept t (countLate t) := .of_eq
  unfold complete
  split
  · unfold completeTag
    split
    · next op hop => exact (resolve_mergeLaw h hop o (x := .free) nofun).kept (conclude_mergeKept s _)
    · exact h.kept ((setTag_mergeKept (x := .free) nofun).trans (hlate _))
    · exact hstray
  · exact hstray

theorem advanceTime_mergeKept (s : State) : MergeKept s (advanceTime s) := by
  refine ⟨by simp, fun i hi => ?_, .of_eq, .of_eq⟩
  have hslot : (advanceTime s).slots[i] = agedSlot s.slots[i] := by rw [advanceTime_spec]; exact get_tabulate _ i
  rw [hslot, agedSlot_eq] at hi ⊢
  exact ⟨hi, rfl⟩

theorem timeStep_mergeLaw {s : State} (h : MergeLaw s) : MergeLaw (timeStep s) := by
  have hjudge (t : State) : MergeKept t (judgeAllUrgency (judgeRefill t)) := .of_eq
  have hbefore := ((advanceTime_mergeKept s).trans (hjudge _)).trans (judgeAllAged_mergeKept _)
  exact (judgeAllTimeouts_mergeLaw (h.kept hbefore)).kept (conclude_mergeKept s _)

theorem commitPart_mergeLaw {s : State} (h : MergeLaw s) : MergeLaw (commitPart s) := by
  have hset : MergeKept s (judgeAllUrgency (clampBalances (adoptStaged s))) := .of_eq
  have hbefore := (hset.trans (judgeAllAged_mergeKept _)).trans (judgePressure_mergeKept _)
  have hcommit : MergeLaw (commitStaged s) :=
    (judgeAllTimeouts_mergeLaw (h.kept hbefore)).kept (conclude_mergeKept s _)
  have hvalidate : MergeLaw (validateAndCommit s) := by
    unfold validateAndCommit
    split
    · exact h.kept .of_eq
    · exact hcommit.kept .of_eq
  unfold commitPart
  split
  case h_1 => exact h.kept .of_eq
  all_goals exact hvalidate

/-! ### An acceptance -/

theorem accepted_mergeLaw {s : State} (h : MergeLaw s) (a : AccessReq) (w : WindowIndex) (i : SlotId) :
    MergeLaw (accepted s a w i) := by
  obtain ⟨law, hdrains⟩ := mergeLaw_iff.1 h
  obtain ⟨hentries, htags, -⟩ := accepted_frame s a w i
  obtain ⟨hlist, href, hother⟩ := entered_findLine s a w i
  have hlines : (accepted s a w i).lines = (entered s a w i).lines := by simp [accepted]
  have hfind (b) : findLine (accepted s a w i) b = findLine (entered s a w i) b := findLine_congr hlines b
  refine mergeLaw_iff.2 ⟨⟨?_, fun b e => ?_, fun b l hl => ?_, fun j hj => ?_⟩, hdrains.kept (.of_eq hentries) (.of_eq htags)⟩
  · rw [hlines]
    exact joinLine_lines (s := enqueue (setSlot (markTag s a.initiator a.tag) i (acceptedSlot s a w)) i
      (requestClass s a w)) law.nodup a.line i
  · rw [hentries, ← law.refs, mergeRef_eq_of_findLine (hfind b)]
    by_cases hb : b = a.line
    · rw [hb, href]
    · rw [mergeRef_eq_of_findLine (hother b hb)]
  · rw [hfind] at hl
    by_cases hb : b = a.line
    · rw [hb] at hl
      rw [lineList, hl] at hlist
      have hmem : l.list = lineList s a.line ++ [i] := hlist
      simp [hmem]
    · exact law.busy b l ((hother b hb).symm.trans hl)
  · rw [accepted_lists]
    by_cases hji : j = i
    · subst hji
      have hline : (accepted s a w j).slots[j].line = a.line := by rw [accepted_slots_self]; rfl
      rw [hline, if_pos rfl]
      exact List.mem_append_right _ List.mem_cons_self
    · rw [accepted_slots_ne s a w hji] at hj ⊢
      have hmem := law.queued j hj
      dsimp only
      split
      · exact List.mem_append_left _ hmem
      · exact hmem

theorem intake_mergeLaw {s : State} (h : MergeLaw s) (r : Request) : MergeLaw (intake s r) := by
  rcases intake_cases s r with he | ⟨k, he⟩ | ⟨st, k, -, he⟩ | ⟨a, w, i, -, -, he⟩ | ⟨i, g, k, -, -, he⟩ <;> rw [he]
  · exact h.kept .of_eq
  · exact h.kept .of_eq
  · exact h.kept (.of_eq (by simp [refusedInto]) (by simp [refusedInto]) (by simp [refusedInto]) (by simp [refusedInto]))
  · have hcount (t : State) (k : ClassId) : MergeKept t (setAnswer (countAccepted t k) (some .accept)) := .of_eq
    exact (accepted_mergeLaw h a w i).kept ((judgeStrict_mergeKept _ a.line).trans (hcount _ _))
  · have hregistered : MergeKept s (setFenceOrder (setFence (markTag s i g) k (settleFence (capturedFence s i g)))
        (s.fenceOrder ++ [k])) := .of_eq
    have hanswer (t : State) : MergeKept t (setAnswer (publish s t) (some .accept)) := .of_eq
    exact h.kept ((hregistered.trans (demandFence_mergeKept _ _)).trans (hanswer _))

/-! ### A delivery -/

theorem CapturesStay.line {s t : State} (h : CapturesStay s t) (i : SlotId) : t.slots[i].line = s.slots[i].line := by
  obtain ⟨-, -, -, hline, -⟩ := h i
  exact hline

theorem departed_state {s : State} {rest : List Ref} {ref : Ref} {i : SlotId}
    (h : (departed s rest ref).slots[i].state = .queued) : s.slots[i].state = .queued := by
  cases ref with
  | slot j =>
    rw [departed_slot_slots] at h
    split at h
    · next hij =>
      rw [hij]
      dsimp only at h
      split at h
      · cases h
      · exact h
    · exact h
  | fence k => simpa [departed, consumed] using h
  | refusal k => simpa [departed, consumed] using h

theorem deliver_mergeKept (s : State) : MergeKept s (deliver s) := by
  refine ⟨by simp, fun i hi => ⟨?_, (deliver_capturesStay s).line i⟩, .of_eq, .of_eq⟩
  cases hs : s.responses with
  | nil => simpa only [deliver, hs] using hi
  | cons ref rest =>
    rw [deliver_eq hs] at hi
    simp only [conclude_frame] at hi
    exact departed_state hi

/-! ### A drain's grant -/

theorem grantDrain_entries (s : State) (e d : EntryId) : (grantDrain s e).entries[d] =
    if d = e then { s.entries[e] with state := .draining, memTag := (issueForEntry s e).entries[e].memTag }
    else s.entries[d] := by
  obtain ⟨m, hm⟩ := issueForEntry_entry s e
  simp only [grantDrain, countDrain_frame, get_setEntry, hm, if_true]
  split
  · rfl
  · rfl

/-- A DRAIN_PENDING entry that is granted its drain holds its op's tag, and is DRAINING with it. -/
theorem grantDrain_mergeLaw {s : State} (h : MergeLaw s) {e : EntryId} (he : s.entries[e].state = .drainPending) :
    MergeLaw (grantDrain s e) := by
  obtain ⟨law, hdrains⟩ := mergeLaw_iff.1 h
  have hentries : EntriesStay s (grantDrain s e) := fun d => by
    rw [grantDrain_entries]
    split
    · next hd =>
      subst hd
      exact ⟨by rw [he]; simp, rfl, fun hd => by rw [he] at hd; cases hd⟩
    · exact .refl _
  have hkept : LineLaw (grantDrain s e) := law.kept (by simp) .of_eq hentries
  refine mergeLaw_iff.2 ⟨hkept, fun σ op d hσ hd => ?_⟩
  have htags : (grantDrain s e).tags = (issueForEntry s e).tags := by simp [grantDrain]
  cases hf : firstFreeTag s with
  | none =>
    have hsame : issueForEntry s e = s := by simp only [issueForEntry, hf]
    rw [hsame] at htags
    exact (hdrains.kept hentries (.of_eq htags)) σ op d hσ hd
  | some t =>
    rw [htags, issueForEntry_spec hf] at hσ
    simp only [get_put] at hσ
    split at hσ
    · next hσt =>
      cases hσ
      cases hd
      rw [grantDrain_entries, if_pos rfl, issueForEntry_spec hf]
      simp only [get_put_self, hσt, and_self]
    · obtain ⟨-, -, hdrain⟩ := hentries d
      obtain ⟨hstate, htag⟩ := hdrains σ op d hσ hd
      obtain ⟨hstate', htag'⟩ := hdrain hstate
      exact ⟨hstate', htag'.trans htag⟩

theorem nextDrainGrant_mergeLaw {s : State} (h : MergeLaw s) : MergeLaw (nextDrainGrant s) := by
  unfold nextDrainGrant
  split
  · next e he => exact grantDrain_mergeLaw h (choose_drain he)
  · exact h
  · exact h

/-! ### RESTART and a hard reset -/

/-- The entries that RESTART leaves are the DRAINING ones. -/
theorem restarted_entry_held {s : State} {e : EntryId} : (restarted s).entries[e].state ≠ .free ↔
    s.entries[e].state = .draining := by
  have hlive := entryLive_iff (m := s.entries[e])
  rw [restarted_entries]
  split
  · next h =>
    refine ⟨fun hf => absurd rfl hf, fun hd => ?_⟩
    rw [hlive, hd] at h
    exact h.elim nofun nofun
  · next h =>
    rw [hlive] at h
    show s.entries[e].state ≠ .free ↔ _
    cases hs : s.entries[e].state <;> simp_all

theorem restarted_entry_draining {s : State} {e : EntryId} (h : s.entries[e].state = .draining) :
    (restarted s).entries[e] = { s.entries[e] with waiting := [] } := by
  rw [restarted_entries, if_neg]
  rw [entryLive_iff, h]
  exact fun h => h.elim nofun nofun

theorem findLine_mem {s : State} {a : LineAddr} {l : LineEntry} (h : findLine s a = some l) : l ∈ s.lines :=
  List.mem_of_find?_eq_some h

theorem restarted_mergeLaw {s : State} (h : MergeLaw s) : MergeLaw (restarted s) := by
  obtain ⟨law, hdrains⟩ := mergeLaw_iff.1 h
  have hmem := mem_restarted_lines_of_mergeLaw h
  have hnd := restarted_lines law.nodup
  refine mergeLaw_iff.2 ⟨⟨hnd, fun a e => ?_, fun a l hl => ?_, fun i hi => ?_⟩, fun σ op e hσ he => ?_⟩
  · rw [restarted_entry_held]
    constructor
    · intro href
      obtain ⟨l, hl, hle⟩ := Option.bind_eq_some_iff.1 href
      obtain ⟨d, hd, hld⟩ := (hmem l).1 (findLine_mem hl)
      rw [hld, Option.some.injEq] at hle
      subst hle
      have hline : s.entries[d].line = a := by rw [← findLine_line hl, hld]
      rw [restarted_entry_draining hd]
      exact ⟨hd, hline⟩
    · rintro ⟨hd, rfl⟩
      rw [restarted_entry_draining hd, mergeRef]
      have hfound := findLine_of_mem hnd ((hmem _).2 ⟨e, hd, rfl⟩)
      dsimp only at hfound ⊢
      rw [hfound]
      rfl
  · obtain ⟨e, -, rfl⟩ := (hmem l).1 (findLine_mem hl)
    rintro ⟨-, hnone⟩
    cases hnone
  · rw [restarted_slots] at hi
    exact absurd hi (restartSlot_queueing _).1
  · have htags : (restarted s).tags = s.tags := by simp [restarted]
    rw [htags] at hσ
    obtain ⟨hstate, htag⟩ := hdrains σ op e hσ he
    rw [restarted_entry_draining hstate]
    exact ⟨hstate, htag⟩

theorem restartPart_mergeLaw {s : State} (h : MergeLaw s) : MergeLaw (restartPart s) := by
  by_cases hs : s.part = .restarting
  · rw [restartPart_busy hs]
    exact h.kept (.of_eq (by simp [answerBusy]) (by simp [answerBusy]) (by simp [answerBusy]) (by simp [answerBusy]))
  · have hanswer (t : State) : MergeKept t (answerPart t) :=
      .of_eq (by simp [answerPart]) (by simp [answerPart]) (by simp [answerPart]) (by simp [answerPart])
    rw [restartPart_eq hs]
    exact (restarted_mergeLaw h).kept ((conclude_mergeKept s _).trans (hanswer _))

theorem afterReset_mergeLaw (s : State) : MergeLaw (afterReset s) := by
  have hentries (e : EntryId) : (afterReset s).entries[e] = MergeEntry.free := by simp [afterReset, State.reset]
  have htags (τ : TagId) : (afterReset s).tags[τ] = .free := by simp [afterReset, State.reset]
  have hfind (a : LineAddr) : findLine (afterReset s) a = none := rfl
  refine mergeLaw_iff.2 ⟨⟨List.nodup_nil, fun a e => ?_, fun a l hl => ?_, fun i hi => ?_⟩, fun τ op e hop _ => ?_⟩
  · rw [mergeRef, hfind, hentries]
    exact ⟨nofun, fun h => absurd rfl h.1⟩
  · rw [hfind] at hl
    cases hl
  · rw [afterReset_slots] at hi
    cases hi
  · rw [htags] at hop
    cases hop

/-! ### A slot's grant -/

theorem mergedEntry_frame (m : MergeEntry) (x : Slot) :
    (mergedEntry m x).state = m.state ∧ (mergedEntry m x).line = m.line ∧ (mergedEntry m x).window = m.window ∧
    (mergedEntry m x).epoch = m.epoch ∧ (mergedEntry m x).firstMerge = m.firstMerge ∧
    (mergedEntry m x).reasons = m.reasons ∧ (mergedEntry m x).demandTime = m.demandTime ∧
    (mergedEntry m x).memTag = m.memTag := by
  simp only [mergedEntry, and_self]

theorem mergedEntry_stays (m : MergeEntry) (x : Slot) : EntryStays m (mergedEntry m x) := by
  obtain ⟨hstate, hline, -, -, -, -, -, htag⟩ := mergedEntry_frame m x
  exact ⟨by rw [hstate], hline, fun h => ⟨hstate.trans h, htag⟩⟩

theorem mergeInto_entriesStay (s : State) (i : SlotId) (e : EntryId) : EntriesStay s (mergeInto s i e) := by
  have hmerged : EntriesStay s (countMerge (setEntry s e (mergedEntry s.entries[e] s.slots[i]))) :=
    setEntry_entriesStay (mergedEntry_stays s.entries[e] s.slots[i])
  unfold mergeInto
  dsimp only
  split
  · exact hmerged.trans (addReason_mergeKept _ e .full).entries
  · exact hmerged

theorem doMerge_entriesStay (s : State) (i : SlotId) (e : EntryId) : EntriesStay s (doMerge s i e) :=
  (mergeInto_entriesStay s i e).trans (.of_eq (by simp [doMerge]))

theorem doMergeWait_entriesStay (s : State) (i : SlotId) (e : EntryId) : EntriesStay s (doMergeWait s i e) := by
  have hwaits (t : State) : EntriesStay t (awaitDrain t i e) := by
    have hset : EntriesStay t (setSlot t i { t.slots[i] with state := .waitDrain }) := .of_eq
    exact hset.trans (setEntry_entriesStay (EntryStays.refl t.entries[e]))
  exact ((mergeInto_entriesStay s i e).trans (hwaits _)).trans (addReason_mergeKept _ e .confirm).entries

theorem drainCmdIfDraining_entriesStay (s : State) (e : EntryId) : EntriesStay s (drainCmdIfDraining s e) := by
  unfold drainCmdIfDraining
  split
  · exact (addReason_mergeKept s e .drainCmd).entries
  · exact .of_eq

/-- The entry that a grant allocates is held for the slot's line, and every other entry stays. -/
theorem acted_entries (s : State) (i : SlotId) (a : Action) (d : EntryId) :
    (a = .allocate d ∧ (acted s i a).entries[d].state ≠ .free ∧ (acted s i a).entries[d].line = s.slots[i].line) ∨
    (a ≠ .allocate d ∧ EntryStays s.entries[d] (acted s i a).entries[d]) := by
  obtain ⟨-, -, -, -, -, -, -, hentries⟩ := ungrouped_frame s i
  have hstays (h : EntriesStay (ungrouped s i) (acted s i a)) : EntryStays s.entries[d] (acted s i a).entries[d] :=
    hentries ▸ h d
  cases a with
  | forward e => exact .inr ⟨nofun, hstays (.of_eq (by simp [acted, doAction]))⟩
  | overlayRead e => exact .inr ⟨nofun, hstays (.of_eq (by simp [acted, doAction]))⟩
  | plainRead => exact .inr ⟨nofun, hstays (.of_eq (by simp [acted, doAction]))⟩
  | merge e => exact .inr ⟨nofun, hstays (doMerge_entriesStay _ i e)⟩
  | mergeWait e => exact .inr ⟨nofun, hstays (doMergeWait_entriesStay _ i e)⟩
  | direct => exact .inr ⟨nofun, hstays (.of_eq (by simp [acted, doAction]))⟩
  | allocate e =>
    let u := ungrouped s i
    let opened := setMergeRef (setEntry u e (allocatedEntry u.slots[i] u.timeBase)) u.slots[i].line (some e)
    have hopened (d : EntryId) :
        opened.entries[d] = if d = e then allocatedEntry u.slots[i] u.timeBase else u.entries[d] := get_setEntry ..
    have hafter : EntriesStay opened (acted s i (.allocate e)) :=
      (doMerge_entriesStay opened i e).trans (drainCmdIfDraining_entriesStay _ e)
    obtain ⟨hfree, hline, hdrain⟩ := hafter d
    by_cases hd : d = e
    · subst hd
      rw [hopened, if_pos rfl] at hfree hline
      refine .inl ⟨rfl, hfree.not.2 nofun, hline.trans ?_⟩
      exact ungrouped_line s i i
    · rw [hopened, if_neg hd] at hfree hline hdrain
      refine .inr ⟨fun h => hd (Action.allocate.inj h).symm, ?_⟩
      rw [← hentries]
      exact ⟨hfree, hline, hdrain⟩

theorem issueForSlot_entryOpsStay (s : State) (i : SlotId) (k : OpKind) : EntryOpsStay s (issueForSlot s i k) := by
  cases hf : firstFreeTag s with
  | none =>
    have hsame : issueForSlot s i k = s := by simp only [issueForSlot, hf]
    rw [hsame]
    exact .of_eq
  | some t =>
    intro τ op e hop hsrc
    rw [issueForSlot_spec hf] at hop
    simp only [get_put] at hop
    split at hop
    · cases hop
      cases hsrc
    · exact hop

theorem doPlainRead_entryOpsStay (s : State) (i : SlotId) : EntryOpsStay s (doPlainRead s i) :=
  have hset : EntryOpsStay s (setSlot s i { s.slots[i] with state := .issued }) := .of_eq
  hset.trans (issueForSlot_entryOpsStay _ i .lineRead)

theorem doOverlay_entryOpsStay (s : State) (i : SlotId) (e : EntryId) : EntryOpsStay s (doOverlay s i e) := by
  have hset : EntryOpsStay s (setSlot s i { s.slots[i] with
      snapshot := some s.entries[e].valid, data := keepLanes s.entries[e].valid s.entries[e].data }) := .of_eq
  exact (hset.trans (doPlainRead_entryOpsStay _ i)).trans (.of_eq (by simp only [doOverlay, countOverlay_frame]))

theorem doDirect_entryOpsStay (s : State) (i : SlotId) : EntryOpsStay s (doDirect s i) := by
  refine (issueForSlot_entryOpsStay s i (.maskedWrite s.slots[i].lanes)).trans (.of_eq ?_)
  rcases doDirect_cases s i with h | h
  · rw [h]; rfl
  · rw [h]; rfl

/-- An op that an action issues is a slot's. -/
theorem acted_entryOpsStay (s : State) (i : SlotId) (a : Action) : EntryOpsStay s (acted s i a) := by
  have hgroup : EntryOpsStay s (ungrouped s i) := .of_eq (by simp [ungrouped])
  have haction : EntryOpsStay (ungrouped s i) (doAction (ungrouped s i) i a) := by
    cases a with
    | overlayRead e => exact doOverlay_entryOpsStay _ i e
    | plainRead => exact doPlainRead_entryOpsStay _ i
    | direct => exact doDirect_entryOpsStay _ i
    | forward e | merge e | mergeWait e | allocate e => exact .of_eq (by simp [doAction])
  exact hgroup.trans haction

theorem followLine_entriesStay (s : State) (i : SlotId) (line : LineAddr) (a : Action) :
    EntriesStay s (followLine s i line a) := by
  have hjoin (t : State) : EntriesStay t (joinIfMerged t i a) := by
    unfold joinIfMerged
    split
    · next e _ =>
      unfold joinWaitSets
      dsimp only
      split
      · exact (EntriesStay.of_eq (by simp)).trans (addReason_mergeKept _ e .fence).entries
      · exact .of_eq
    · exact .of_eq
  have hpressure (t : State) : EntriesStay t (pressureIfAllocated t a) := by
    cases a
    case allocate => exact (judgePressure_mergeKept t).entries
    all_goals exact .of_eq rfl
  have htidy (t : State) : EntriesStay t (tidyLine t line) := .of_eq
  exact (((judgeStrict_mergeKept s line).entries.trans (hjoin _)).trans (hpressure _)).trans (htidy _)

theorem findLine_isSome_of_mem {s : State} {a : LineAddr} {i : SlotId} (h : i ∈ lineList s a) :
    (findLine s a).isSome = true := by
  rw [lineList] at h
  cases hf : findLine s a with
  | none =>
    rw [hf] at h
    exact absurd h List.not_mem_nil
  | some l => rfl

/-- Once a MERGE-mode WRITE has allocated an entry on a line that has one, the line's reference is the entry. -/
theorem acted_mergeRef_allocate {s : State} {i : SlotId} (h : (findLine s s.slots[i].line).isSome = true) (m : EntryId) :
    mergeRef (acted s i (.allocate m)) s.slots[i].line = some m := by
  obtain ⟨x, hx⟩ := Option.isSome_iff_exists.1 h
  rcases acted_lines s i (.allocate m) with ⟨hno, -⟩ | ⟨e, he, hlines⟩
  · exact absurd rfl (hno m)
  · cases he
    obtain ⟨-, hset, -⟩ := setMergeRef_spec (ungrouped s i) s.slots[i].line (some m)
    rw [mergeRef_eq_of_findLine (findLine_congr hlines _), hset, findLine_congr (ungrouped_leaveLine s i), leaveLine,
      findLine_updateLine s _ _ (by intro l; rfl), if_pos rfl, hx]
    rfl

theorem grantSlot_mergeRef_allocate {s : State} {i : SlotId} (h : (findLine s s.slots[i].line).isSome = true) (m : EntryId)
    (cls : ClassId) (rr : Bool) : mergeRef (grantSlot s i (.allocate m) cls rr) s.slots[i].line = some m := by
  have hacted := acted_mergeRef_allocate h m
  obtain ⟨l, hl, hm⟩ := Option.bind_eq_some_iff.1 hacted
  have hkept := findLine_tidyLine_of_busy hl fun hidle => nomatch hm.symm.trans hidle.2
  rw [mergeRef, grantSlot_findLine, hkept]
  exact hm

theorem grantSlot_entriesStay (s : State) (i : SlotId) (a : Action) (cls : ClassId) (rr : Bool) :
    EntriesStay (acted s i a) (grantSlot s i a cls rr) := by
  rw [grantSlot_eq]
  have haccount (t : State) (k : ClassId) (n : Nat) : EntriesStay t (account t k cls n rr) :=
    .of_eq (by simp only [account_frame])
  exact (followLine_entriesStay _ i s.slots[i].line a).trans (haccount _ _ _)

/-- A slot that is QUEUED after a grant is another one, and was QUEUED before it. -/
theorem grantSlot_queued {s : State} {i j : SlotId} {a : Action} {cls : ClassId} {rr : Bool}
    (h : (grantSlot s i a cls rr).slots[j].state = .queued) :
    j ≠ i ∧ s.slots[j].state = .queued ∧ (grantSlot s i a cls rr).slots[j].line = s.slots[j].line := by
  by_cases hj : j = i
  · subst hj
    rw [grantSlot_slots] at h
    obtain ⟨-, -, -, -, -, -, -, hst⟩ := (acts_ungrouped s j a).self
    rw [h] at hst
    exact hst.elim nofun fun hst => hst.elim nofun fun hst => nomatch hst.1
  · rw [grantSlot_slots_ne s a cls rr hj, ungrouped_slots] at h ⊢
    exact ⟨hj, h, rfl⟩

/-- A grant leaves the line's reference, but that an allocation sets it to an entry that was FREE on a line that had
none. -/
theorem grantSlot_mergeLaw {s : State} (h : MergeLaw s) {i : SlotId} {a : Action} (hgrant : grantableAction s i = some a)
    (cls : ClassId) (rr : Bool) : MergeLaw (grantSlot s i a cls rr) := by
  obtain ⟨law, hdrains⟩ := mergeLaw_iff.1 h
  obtain ⟨hqueued, -, hfits, -⟩ := grantableAction_iff.1 hgrant
  let t := grantSlot s i a cls rr
  let line := s.slots[i].line
  have hother {b : LineAddr} (hb : b ≠ line) : findLine t b = findLine s b :=
    (grantSlot_findLine s i a cls rr b).trans ((findLine_tidyLine_ne _ hb).trans (acted_findLine_ne s i a hb))
  have hlist : lineList t line = without i (lineList s line) := grantSlot_lineList law.nodup i a cls rr
  have hentries (d : EntryId) : (a = .allocate d ∧ t.entries[d].state ≠ .free ∧ t.entries[d].line = line) ∨
      (a ≠ .allocate d ∧ EntryStays s.entries[d] t.entries[d]) := by
    have hafter := grantSlot_entriesStay s i a cls rr d
    obtain ⟨ha, hstate, hline⟩ | ⟨ha, hstays⟩ := acted_entries s i a d
    · obtain ⟨hfree, hline', -⟩ := hafter
      exact .inl ⟨ha, hfree.not.2 hstate, hline'.trans hline⟩
    · exact .inr ⟨ha, hstays.trans hafter⟩
  have hwasFree {d : EntryId} (ha : a = .allocate d) : s.entries[d].state = .free ∧ mergeRef s line = none := by
    subst ha
    obtain ⟨-, -, href, hfree, -⟩ := hfits
    exact ⟨hfree, href⟩
  have hallocated {d : EntryId} (ha : a = .allocate d) : mergeRef t line = some d := by
    subst ha
    exact grantSlot_mergeRef_allocate (findLine_isSome_of_mem (law.queued i hqueued)) d cls rr
  refine mergeLaw_iff.2 ⟨⟨?_, fun b d => ?_, fun b l hl => ?_, fun j hj => ?_⟩, fun τ op d hop hsrc => ?_⟩
  · have hacted := ((acts_ungrouped s i a).lines (ungrouped_lines s i ▸ law.nodup)).1
    show (t.lines.map (·.line)).Nodup
    rw [grantSlot_lines]
    exact ((tidyLine_kept _ line).lines hacted).1
  · obtain ⟨ha, hstate, hline⟩ | ⟨ha, hfree, hline, -⟩ := hentries d
    · rw [hline]
      by_cases hb : b = line
      · rw [hb, hallocated ha]
        exact ⟨fun _ => ⟨hstate, rfl⟩, fun _ => rfl⟩
      · rw [mergeRef_eq_of_findLine (hother hb), law.refs]
        exact ⟨fun hd => absurd (hwasFree ha).1 hd.1, fun hd => absurd hd.2.symm hb⟩
    · rw [hline, Ne, hfree, ← Ne, ← law.refs]
      by_cases hb : b = line
      · by_cases hm : ∃ m, a = .allocate m
        · obtain ⟨m, hm⟩ := hm
          rw [hb, hallocated hm, (hwasFree hm).2, Option.some.injEq]
          exact ⟨fun hmd => absurd (hmd ▸ hm) ha, nofun⟩
        · rw [hb, grantSlot_mergeRef law.nodup i (fun m h => hm ⟨m, h⟩) cls rr]
      · rw [mergeRef_eq_of_findLine (hother hb)]
  · by_cases hb : b = line
    · subst hb
      exact busy_of_findLine_tidyLine ((grantSlot_findLine s i a cls rr _).symm.trans hl)
    · exact law.busy b l ((hother hb).symm.trans hl)
  · obtain ⟨hji, hjq, hjl⟩ := grantSlot_queued hj
    have hmem := law.queued j hjq
    rw [hjl]
    by_cases hb : s.slots[j].line = line
    · rw [hb] at hmem ⊢
      exact hlist ▸ mem_without.2 ⟨hmem, hji⟩
    · exact lineList_eq_of_findLine (hother hb) ▸ hmem
  · have htags : EntryOpsStay s t := (acted_entryOpsStay s i a).trans (.of_eq (by simp [t, grantSlot_eq, account_frame]))
    obtain ⟨hstate, htag⟩ := hdrains τ op d (htags τ op d hop hsrc) hsrc
    obtain ⟨ha, -⟩ | ⟨-, -, -, hdrain⟩ := hentries d
    · exact absurd ((hwasFree ha).1.symm.trans hstate) nofun
    · obtain ⟨hstate', htag'⟩ := hdrain hstate
      exact ⟨hstate', htag'.trans htag⟩

theorem nextSlotGrant_mergeLaw {s : State} (h : MergeLaw s) : MergeLaw (nextSlotGrant s) := by
  unfold nextSlotGrant
  split
  · next i a cls rr hc =>
    have hpublish (t : State) : MergeKept t (publish s t) := .of_eq
    exact (grantSlot_mergeLaw h (choose_slot hc) cls rr).kept (hpublish _)
  · exact h
  · exact h

/-! ### Every command -/

theorem drainPart_mergeKept (s : State) : MergeKept s (drainPart s) := by
  have hpart : MergeKept s (setPart s .draining) := .of_eq
  have hend (t : State) : MergeKept t (answerPart (judgeEmpty t)) :=
    .of_eq (by simp [answerPart]) (by simp [answerPart]) (by simp [answerPart]) (by simp [answerPart])
  have hanswer (st : MgmtStatus) (v : Word) : MergeKept s (answerMgmt s st v) := .of_eq
  unfold drainPart
  split
  · exact (hpart.trans (demandAll_mergeKept _)).trans (hend _)
  · exact hanswer _ _
  · exact hanswer _ _
  · exact hanswer _ _

theorem effect_mergeLaw (c : Instr) {s : State} (h : MergeLaw s) : MergeLaw (effect c s) := by
  cases c with
  | presentation r => exact intake_mergeLaw h r
  | delivery => exact h.kept (deliver_mergeKept s)
  | grant => exact nextSlotGrant_mergeLaw h
  | drainGrant => exact nextDrainGrant_mergeLaw h
  | completion tag st line => exact complete_mergeLaw h tag _
  | timeBaseStep => exact timeStep_mergeLaw h
  | aged e => exact h.kept (judgeAged_mergeKept s e)
  | responseTimeout τ => exact (judgeTimeout_mergeLaw h τ).kept (conclude_mergeKept s _)
  | hardReset => exact afterReset_mergeLaw s
  | commit => exact commitPart_mergeLaw h
  | drain => exact h.kept (drainPart_mergeKept s)
  | restart => exact restartPart_mergeLaw h
  | hold _ | refillExpiry | urgentEpisode _ | resetDeassert | shortFrame | unknownCommand _ | readItem _ | writeItem _ _
  | discardStaged | resume | takeFault | ackAlert _ | clearCounters | status _ =>
    exact h.kept (.of_eq (by simp [effect]) (by simp [effect]) (by simp [effect]) (by simp [effect]))

/-- Settles O56: every effect keeps the law, and the line's one reference names both entries. -/
theorem oneEntryForEachLine : Obligations.OneEntryForEachLine := by
  refine ⟨fun s t h hstep => step_keeps (fun u rest hu => hu.kept .of_eq) (fun c u => effect_mergeLaw c) h hstep,
    fun s e e' h he he' hline => ?_⟩
  obtain ⟨law, -⟩ := mergeLaw_iff.1 h
  have href := (law.refs s.entries[e].line e).2 ⟨he, rfl⟩
  have href' := (law.refs s.entries[e].line e').2 ⟨he', hline.symm⟩
  exact Option.some.inj (href.symm.trans href')

/-! ## The line's part of a grant, and the references it makes ready (R15, R72, R77, R150) -/

/-- A line that refers to an entry keeps its line entry, whatever else the table holds. -/
theorem grantSlot_findLine_held {s : State} {i : SlotId} {a : Action} {m : EntryId}
    (h : mergeRef (acted s i a) s.slots[i].line = some m) (cls : ClassId) (rr : Bool) :
    findLine (grantSlot s i a cls rr) s.slots[i].line = findLine (acted s i a) s.slots[i].line := by
  obtain ⟨l, hl, hm⟩ := Option.bind_eq_some_iff.1 h
  rw [grantSlot_findLine, hl]
  exact findLine_tidyLine_of_busy hl fun hidle => nomatch hm.symm.trans hidle.2

theorem grantSlot_leadingReads_held {s : State} {i : SlotId} {a : Action} {m : EntryId}
    (h : mergeRef (acted s i a) s.slots[i].line = some m) (cls : ClassId) (rr : Bool) :
    leadingReads (grantSlot s i a cls rr) s.slots[i].line = leadingReads (acted s i a) s.slots[i].line := by
  rw [leadingReads, leadingReads, lineList_eq_of_findLine (grantSlot_findLine_held h cls rr), grantSlot_slots]

/-- The ops stand after a grant as its action left them. -/
theorem grantSlot_ops (s : State) (i : SlotId) (a : Action) (cls : ClassId) (rr : Bool) :
    (grantSlot s i a cls rr).tags = (acted s i a).tags ∧ (grantSlot s i a cls rr).issued = (acted s i a).issued := by
  simp only [grantSlot_eq, account_frame, followLine_frame, and_self]

theorem grantSlot_lists (s : State) (i : SlotId) (a : Action) (cls : ClassId) (rr : Bool) :
    (grantSlot s i a cls rr).arrival = s.arrival ∧ (grantSlot s i a cls rr).responses = s.responses := by
  simp only [grantSlot_frame, and_self]

theorem fenceHoldsSlot_iff {f : FenceRecord} {i : SlotId} :
    fenceHoldsSlot f i = true ↔ f.state = .waiting ∧ i ∈ f.waitSlots := by
  simp [fenceHoldsSlot]

/-- A fence record that waits for the slot waits for the entry too (R150). -/
def joinedFence (i : SlotId) (m : EntryId) (f : FenceRecord) : FenceRecord :=
  if fenceHoldsSlot f i then { f with waitEntries := addTo (List.finRange 16) m f.waitEntries } else f

theorem joinWaitSets_fences (s : State) (i : SlotId) (m : EntryId) (k : FenceId) :
    (joinWaitSets s i m).fences[k] = joinedFence i m s.fences[k] := by
  have hmap : (mapFences s (joinedFence i m)).fences[k] = joinedFence i m s.fences[k] := get_mapFences s _ k k.isLt
  have hfences : (joinWaitSets s i m).fences = (mapFences s (joinedFence i m)).fences := by
    unfold joinWaitSets
    dsimp only
    split
    · rfl
    · rfl
  rw [hfences, hmap]

theorem grantSlot_joinIfMerged (s : State) (i : SlotId) (a : Action) (cls : ClassId) (rr : Bool) :
    (grantSlot s i a cls rr).fences = (joinIfMerged (judgeStrict (acted s i a) s.slots[i].line) i a).fences := by
  simp only [grantSlot_eq, account_frame, followLine, tidyLine_frame, pressureIfAllocated_frame]

theorem judgeStrict_acted_fences (s : State) (i : SlotId) (a : Action) :
    (judgeStrict (acted s i a) s.slots[i].line).fences = s.fences := by
  simp [acted, ungrouped]

/-- A grant that merges its slot reaches the fence records that wait for it. -/
theorem grantSlot_fences_merged {a : Action} {m : EntryId} (h : mergeTarget a = some m) (s : State) (i : SlotId)
    (cls : ClassId) (rr : Bool) (k : FenceId) : (grantSlot s i a cls rr).fences[k] = joinedFence i m s.fences[k] := by
  rw [grantSlot_joinIfMerged, joinIfMerged, h]
  dsimp only
  rw [joinWaitSets_fences, judgeStrict_acted_fences]

/-- A grant that merges nothing reaches no fence record. -/
theorem grantSlot_fences_other {a : Action} (h : mergeTarget a = none) (s : State) (i : SlotId) (cls : ClassId)
    (rr : Bool) : (grantSlot s i a cls rr).fences = s.fences := by
  rw [grantSlot_joinIfMerged, joinIfMerged, h]
  exact judgeStrict_acted_fences s i a

theorem grantSlot_fence_state (s : State) (i : SlotId) (a : Action) (cls : ClassId) (rr : Bool) (k : FenceId) :
    (grantSlot s i a cls rr).fences[k].state = s.fences[k].state := by
  cases h : mergeTarget a with
  | none => rw [grantSlot_fences_other h]
  | some m =>
    rw [grantSlot_fences_merged h, joinedFence]
    split <;> rfl

/-- The one reference that a grant can make ready is its slot's, where the action answers it. -/
theorem mem_readyRefs_grantSlot {s : State} {i : SlotId} {a : Action} {cls : ClassId} {rr : Bool}
    (h : choose s = some (.slot i a cls rr)) (ref : Ref) : ref ∈ readyRefs s (grantSlot s i a cls rr) ↔
      ref = .slot i ∧ (grantSlot s i a cls rr).slots[i].state = .done := by
  have hqueued := grantableAction_queued (choose_slot h)
  obtain ⟨harrival, -⟩ := grantSlot_lists s i a cls rr
  cases ref with
  | slot j =>
    rw [slot_mem_readyRefs, Ref.slot.injEq, harrival]
    constructor
    · rintro ⟨-, hd, hnew⟩
      by_cases hj : j = i
      · exact ⟨hj, hj ▸ hd⟩
      · rw [grantSlot_slots_ne s a cls rr hj, ungrouped_slots] at hd
        exact absurd hd hnew
    · rintro ⟨rfl, hd⟩
      exact ⟨offer_arrival (choose_offer h), hd, by rw [hqueued]; nofun⟩
  | fence k =>
    rw [fence_mem_readyRefs, grantSlot_fence_state]
    exact ⟨fun ⟨_, hc, hnew⟩ => absurd hc hnew, fun hf => nomatch hf.1⟩
  | refusal k => exact ⟨fun hm => absurd hm refusal_not_mem_readyRefs, fun hr => nomatch hr.1⟩

/-! ## A line read (R64, R72, R85, R87, R127, R130) -/

/-- A LINE_READ of the slot's line is issued under the lowest-numbered FREE tag. -/
theorem doPlainRead_setSlot {u : State} {τ : TagId} (h : firstFreeTag u = some τ) (i : SlotId) (x : Slot) :
    doPlainRead (setSlot u i x) i = { u with
      tags := put u.tags τ (.outstanding { kind := .lineRead, line := x.line, source := .slot i, issueTime := u.timeBase })
      issued := some { tag := τ, kind := .lineRead, line := x.line, lanes := allLanes, data := none }
      slots := put u.slots i (issuedAs (some τ) x) } := by
  have hset : setSlot (setSlot u i x) i { (setSlot u i x).slots[i] with state := .issued } =
      setSlot u i { x with state := .issued } := by
    simp only [setSlot, setSlots_slots, get_put_self, put_put]
    rfl
  have hself : (setSlot u i { x with state := .issued }).slots[i] = { x with state := .issued } := get_put_self ..
  rw [doPlainRead, hset, issueForSlot_spec (s := setSlot u i _) h, hself]
  simp only [setSlot, setSlots_slots, put_put]
  rfl

/-- The slot of a granted line read, before its op: an overlay has copied its line's entry (R87). -/
def readSlot (s : State) (i : SlotId) : Action → Slot
  | .overlayRead m => { s.slots[i] with
      effCls := none, snapshot := some s.entries[m].valid
      data := keepLanes s.entries[m].valid s.entries[m].data }
  | .forward _ | .plainRead | .merge _ | .mergeWait _ | .allocate _ | .direct => { s.slots[i] with effCls := none }

/-- The actions that issue a LINE_READ. -/
def isLineRead : Action → Bool
  | .overlayRead _ | .plainRead => true
  | .forward _ | .merge _ | .mergeWait _ | .allocate _ | .direct => false

theorem ungrouped_self (s : State) (i : SlotId) : (ungrouped s i).slots[i] = { s.slots[i] with effCls := none } := by
  rw [ungrouped_slots, ungrouped_effCls (.inl rfl), if_pos rfl]

/-- What a line read leaves of the grant's state after its action. -/
theorem acted_lineRead {s : State} {i : SlotId} {a : Action} (ha : isLineRead a = true) {τ : TagId}
    (h : firstFreeTag s = some τ) :
    (acted s i a).tags = put s.tags τ (.outstanding
      { kind := .lineRead, line := s.slots[i].line, source := .slot i, issueTime := s.timeBase }) ∧
    (acted s i a).issued = some
      { tag := τ, kind := .lineRead, line := s.slots[i].line, lanes := allLanes, data := none } ∧
    (acted s i a).slots[i] = issuedAs (some τ) (readSlot s i a) ∧
    (acted s i a).entries = s.entries := by
  obtain ⟨-, -, -, -, -, -, htags, hentries⟩ := ungrouped_frame s i
  have htime : (ungrouped s i).timeBase = s.timeBase := by simp [ungrouped]
  have hfree : firstFreeTag (ungrouped s i) = some τ := by
    rw [← h, firstFreeTag, htags]
    rfl
  have hread (x : Slot) := doPlainRead_setSlot hfree i x
  cases a with
  | plainRead =>
    have hsame : setSlot (ungrouped s i) i (ungrouped s i).slots[i] = ungrouped s i := by
      simp only [setSlot, put_get]; rfl
    have hx := hread (ungrouped s i).slots[i]
    rw [hsame] at hx
    simp only [acted, doAction, hx, htags, htime, hentries, ungrouped_self, get_put_self, readSlot, and_self]
  | overlayRead m =>
    simp only [acted, doAction, doOverlay, hread, countOverlay_frame, htags, htime, hentries, ungrouped_self,
      get_put_self, readSlot, and_self]
  | forward _ | merge _ | mergeWait _ | allocate _ | direct => cases ha

/-- An action that merges into no entry reaches the entries only by the STRICT READs that it leaves leading (R72). -/
theorem grantSlot_entriesButStrictRead {s : State} {i : SlotId} {a : Action} (ha : mergeTarget a = none)
    (hacted : (acted s i a).entries = s.entries) (cls : ClassId) (rr : Bool) :
    EntriesButStrictRead s (publish s (grantSlot s i a cls rr)) s.slots[i].line := by
  have hnot (m : EntryId) : a ≠ .allocate m := by
    rintro rfl
    cases ha
  have hfollow : followLine (acted s i a) i s.slots[i].line a =
      tidyLine (judgeStrict (acted s i a) s.slots[i].line) s.slots[i].line := by
    cases a with
    | forward _ | overlayRead _ | plainRead | direct => rfl
    | merge _ | mergeWait _ | allocate _ => cases ha
  have hentries : (grantSlot s i a cls rr).entries = (judgeStrict (acted s i a) s.slots[i].line).entries := by
    rw [grantSlot_eq, hfollow]
    simp only [account_frame, tidyLine_frame]
  have htime : (acted s i a).timeBase = s.timeBase := by simp [acted, ungrouped]
  have href : mergeRef (acted s i a) s.slots[i].line = mergeRef s s.slots[i].line := acted_mergeRef s i hnot
  intro d
  show (grantSlot s i a cls rr).entries[d] = _
  rw [hentries, judgeStrict_entries, hacted, htime, href]
  by_cases hm : mergeRef s s.slots[i].line = some d
  · have hleading : leadingReads (publish s (grantSlot s i a cls rr)) s.slots[i].line = _ :=
      grantSlot_leadingReads_held (href.trans hm) cls rr
    have hslots : (publish s (grantSlot s i a cls rr)).slots = (acted s i a).slots := grantSlot_slots s i a cls rr
    rw [hleading, hslots]
  · rw [if_neg fun h => hm h.1, if_neg fun h => hm h.1]

/-- Settles O30: the slot takes the lowest FREE tag and is ISSUED, so no reference becomes ready. -/
theorem lineReadIsIssued : Obligations.LineReadIsIssued := by
  intro s i a e rr hr hchoose ha
  obtain ⟨-, -, hfits, hready⟩ := grantableAction_iff.1 (choose_slot hchoose)
  have hread : isLineRead a = true := by rcases ha with rfl | ⟨m, rfl⟩ <;> rfl
  have hneeds : needsOp a = true ∧ mergeTarget a = none := by rcases ha with rfl | ⟨m, rfl⟩ <;> exact ⟨rfl, rfl⟩
  obtain ⟨τ, hτ⟩ := Option.isSome_iff_exists.1 (Bool.and_eq_true_iff.1 (canIssue_iff.2 (hready hneeds.1))).1
  obtain ⟨hfree, hlow⟩ := firstFreeTag_spec hτ
  obtain ⟨htags, hissued, hself, hentries⟩ := acted_lineRead (i := i) hread hτ
  obtain ⟨htags', hissued'⟩ := grantSlot_ops s i a e rr
  obtain ⟨-, hresponses⟩ := grantSlot_lists s i a e rr
  let t := grantSlot s i a e rr
  have hslot : t.slots[i] = issuedAs (some τ) (readSlot s i a) := by rw [← hself, ← grantSlot_slots s i a e rr]
  have hstrict : EntriesButStrictRead s (publish s t) s.slots[i].line :=
    grantSlot_entriesButStrictRead hneeds.2 hentries e rr
  have hcounters := grantSlot_counters s i a e rr
  refine ⟨publish s t, τ, exec_grant_slot hr hchoose, hfree, hlow, htags'.trans htags, hissued'.trans hissued, ?_, ?_, ?_,
    ?_, hstrict⟩
  · rintro rfl
    refine ⟨hslot, vector_ext fun d => (hstrict d).trans ?_, ?_⟩
    · obtain ⟨-, hdead⟩ := hfits
      split
      · next hd => exact withReason_other (hdead d hd.1) _ _
      · rfl
    · show t.counters.overlayReads = _
      rw [hcounters]
      exact satAdd_zero _
  · rintro m rfl
    refine ⟨hslot.trans ?_, ?_⟩
    · have hdata : keepLanes s.entries[m].valid s.entries[m].data =
          tabulate (fun l => if s.entries[m].valid[l] then s.entries[m].data[l] else 0) :=
        vector_ext fun l => by rw [get_tabulate, Fin.getElem_fin, get_keepLanes]; rfl
      rw [readSlot, issuedAs, hdata]
    · show t.counters.overlayReads = _
      rw [hcounters]
  · have hnone : readyRefs s t = [] := List.eq_nil_iff_forall_not_mem.2 fun ref href => by
      obtain ⟨-, hd⟩ := (mem_readyRefs_grantSlot hchoose ref).1 href
      rw [show (grantSlot s i a e rr).slots[i] = _ from hslot] at hd
      cases hd
    rw [publish_responses, hnone, List.append_nil]
    exact hresponses
  · exact grantSlot_fences_other hneeds.2 s i e rr

/-! ## Reasons added one after another (R91) -/

/-- The reasons of a list added in turn to an entry that takes reasons. -/
def withReasons (rs : List Reason) (now : Time) (m : MergeEntry) : MergeEntry :=
  rs.foldl (fun m r => withReason m r now) m

theorem withReasons_append (rs rs' : List Reason) (now : Time) (m : MergeEntry) :
    withReasons (rs ++ rs') now m = withReasons rs' now (withReasons rs now m) := List.foldl_append

theorem withReason_entryLive {m : MergeEntry} (h : entryLive m = true) (r : Reason) (now : Time) :
    entryLive (withReason m r now) = true := by
  rw [withReason_live h]
  rfl

/-- Adding reasons reaches an entry's state, reasons and demand time only. -/
theorem withReasons_frame (rs : List Reason) (now : Time) (m : MergeEntry) :
    (withReasons rs now m).line = m.line ∧ (withReasons rs now m).data = m.data ∧
    (withReasons rs now m).valid = m.valid ∧ (withReasons rs now m).contributors = m.contributors ∧
    (withReasons rs now m).window = m.window ∧ (withReasons rs now m).epoch = m.epoch ∧
    (withReasons rs now m).firstMerge = m.firstMerge ∧ (withReasons rs now m).waiting = m.waiting ∧
    (withReasons rs now m).memTag = m.memTag := by
  induction rs generalizing m with
  | nil => exact ⟨rfl, rfl, rfl, rfl, rfl, rfl, rfl, rfl, rfl⟩
  | cons r rs ih =>
    have hrest := ih (withReason m r now)
    rw [withReason_frame m r now] at hrest
    rw [show withReasons (r :: rs) now m = withReasons rs now (withReason m r now) from rfl, withReason_frame m r now]
    exact hrest

theorem mem_withReasons {m : MergeEntry} (h : entryLive m = true) (rs : List Reason) (now : Time) (x : Reason) :
    x ∈ (withReasons rs now m).reasons ↔ x ∈ m.reasons ∨ x ∈ rs := by
  induction rs generalizing m with
  | nil => simp [withReasons]
  | cons r rs ih =>
    have hrest := ih (withReason_entryLive h r now)
    rw [mem_withReason h] at hrest
    rw [List.mem_cons]
    exact hrest.trans (by tauto)

/-- An entry that a reason is added to is DRAIN_PENDING. -/
theorem withReasons_state {m : MergeEntry} (h : entryLive m = true) (rs : List Reason) (now : Time) :
    (withReasons rs now m).state = if rs = [] then m.state else .drainPending := by
  induction rs generalizing m with
  | nil => rfl
  | cons r rs ih =>
    have hrest := ih (withReason_entryLive h r now)
    rw [withReason_live h] at hrest
    rw [if_neg (List.cons_ne_nil r rs)]
    refine Eq.trans ?_ (hrest.trans (ite_self _))
    rw [← withReason_live h]
    rfl

/-- The first demanded reason sets the demand time, and later ones leave it. -/
theorem withReasons_demandTime {m : MergeEntry} (h : entryLive m = true) (rs : List Reason) (now : Time) :
    (withReasons rs now m).demandTime = if ∃ r ∈ rs, demanded r = true then some (m.demandTime.getD now)
      else m.demandTime := by
  induction rs generalizing m with
  | nil => rfl
  | cons r rs ih =>
    have hrest := ih (withReason_entryLive h r now)
    have hfirst : (withReason m r now).demandTime =
        if demanded r = true then some (m.demandTime.getD now) else m.demandTime := by
      rw [withReason_live h]
      cases demanded r <;> cases m.demandTime <;> rfl
    refine hrest.trans ?_
    rw [hfirst]
    simp only [List.mem_cons, exists_eq_or_imp]
    by_cases hr : demanded r = true
    · simp only [hr, if_true, true_or, Option.getD_some, ite_self]
    · simp only [hr, if_false, Bool.false_eq_true, false_or]

/-- A waiting confirmation that joins stands beside the reasons. -/
theorem withReasons_waiting (rs : List Reason) (now : Time) (m : MergeEntry) (w : List SlotId) :
    { withReasons rs now m with waiting := w } = withReasons rs now { m with waiting := w } := by
  induction rs generalizing m with
  | nil => rfl
  | cons r rs ih =>
    have hone : { withReason m r now with waiting := w } = withReason { m with waiting := w } r now := by
      unfold withReason entryLive
      dsimp only
      split <;> rfl
    refine (ih (withReason m r now)).trans ?_
    rw [hone]
    rfl

/-- The reason, where its condition holds. -/
def reasonIf (c : Bool) (r : Reason) : List Reason := if c then [r] else []

theorem mem_reasonIf {c : Bool} {r x : Reason} : x ∈ reasonIf c r ↔ x = r ∧ c = true := by
  cases c <;> simp [reasonIf]

/-- A reason added to an entry where its condition holds. -/
theorem addReasonIf_entries {s : State} {es : Vector MergeEntry 16} {e : EntryId} {x : MergeEntry} {rs : List Reason}
    (h : s.entries = put es e (withReasons rs s.timeBase x)) (c : Bool) (r : Reason) :
    (if c = true then addReason s e r else s).entries = put es e (withReasons (rs ++ reasonIf c r) s.timeBase x) := by
  cases c with
  | false =>
    rw [reasonIf, if_neg Bool.false_ne_true, if_neg Bool.false_ne_true, List.append_nil]
    exact h
  | true =>
    rw [if_pos rfl, addReason_entries, h, get_put_self, put_put, withReasons_append]
    rfl

/-! ## A merge (R77 to R80, R92, R95, R150) -/

/-- The slot's lanes in the entry, as the statements name them (R78). -/
theorem mergedEntry_merged (m : MergeEntry) (x : Slot) : Merged x m (mergedEntry m x) := by
  refine ⟨fun l => ?_, fun l => ?_, fun j hj => ?_, ?_⟩
  · simp only [mergedEntry, Fin.getElem_fin, get_overlay]
  · simp only [mergedEntry, Fin.getElem_fin, get_lanesUnion]
  · simp only [mergedEntry]
    rw [get_put_ne _ _ hj]
  · simp only [mergedEntry]
    rw [get_put_self]
    cases x.mode <;> rfl

theorem Merged.congr {x : Slot} {before after after' : MergeEntry} (h : Merged x before after)
    (data : after'.data = after.data) (valid : after'.valid = after.valid)
    (contributors : after'.contributors = after.contributors) : Merged x before after' := by
  unfold Merged at h ⊢
  rw [data, valid, contributors]
  exact h

/-- The reasons that a merge adds, in the order in which its grant judges them. -/
def mergeReasons (full confirm drain strict fence : Bool) : List Reason :=
  reasonIf full .full ++ reasonIf confirm .confirm ++ reasonIf drain .drainCmd ++ reasonIf strict .strictRead ++
    reasonIf fence .fence

theorem mem_mergeReasons {full confirm drain strict fence : Bool} {r : Reason} :
    r ∈ mergeReasons full confirm drain strict fence ↔ (r = .full ∧ full = true) ∨ (r = .confirm ∧ confirm = true) ∨
      (r = .drainCmd ∧ drain = true) ∨ (r = .strictRead ∧ strict = true) ∨ (r = .fence ∧ fence = true) := by
  simp only [mergeReasons, List.mem_append, mem_reasonIf, or_assoc]

/-- The reasons that a list adds are those of R91. -/
theorem reasonsAfterMerge_of {s t : State} {i : SlotId} {confirm allocating : Bool} {before base : MergeEntry}
    {rs : List Reason} (live : entryLive base = true) (state : base.state = before.state)
    (reasons : base.reasons = before.reasons) (demandTime : base.demandTime = before.demandTime)
    (adds : ∀ r, AddsOnMerge s t i confirm allocating (withReasons rs s.timeBase base) r ↔ r ∈ rs) :
    ReasonsAfterMerge s t i confirm allocating before (withReasons rs s.timeBase base) := by
  unfold ReasonsAfterMerge
  dsimp only
  simp only [adds, mem_withReasons live, withReasons_state live, withReasons_demandTime live, state, reasons, demandTime,
    true_and, implies_true]
  refine ⟨fun ⟨r, hr⟩ => if_neg fun hnil => ?_, fun hnone => if_pos ?_, fun h => if_pos h, fun hno => if_neg ?_⟩
  · rw [hnil] at hr
    cases hr
  · exact List.eq_nil_iff_forall_not_mem.2 hnone
  · rintro ⟨r, hr, hd⟩
    rw [hno r hr] at hd
    cases hd

/-- The entry of a merge after its lanes and, for a CONFIRM-mode one, its confirmation, before any reason (R78, R80). -/
def mergeBase (m : MergeEntry) (x : Slot) (i : SlotId) (confirm : Bool) : MergeEntry :=
  { mergedEntry m x with waiting := m.waiting ++ if confirm then [i] else [] }

theorem mergeInto_entries (s : State) (i : SlotId) (e : EntryId) :
    (mergeInto s i e).entries = put s.entries e (withReasons
      (reasonIf (lanesFull (mergedEntry s.entries[e] s.slots[i]).valid) .full) s.timeBase
      (mergedEntry s.entries[e] s.slots[i])) := by
  have hself : (countMerge (setEntry s e (mergedEntry s.entries[e] s.slots[i]))).entries[e] =
      mergedEntry s.entries[e] s.slots[i] := by
    simp only [countMerge_frame, get_setEntry, if_true]
  simp only [mergeInto, hself]
  generalize mergedEntry s.entries[e] s.slots[i] = x
  have hset : (countMerge (setEntry s e x)).entries = put s.entries e (withReasons [] s.timeBase x) := rfl
  exact addReasonIf_entries hset (lanesFull x.valid) .full

/-- What the grant's slot merges does not depend on its effective class. -/
theorem ungrouped_merges (s : State) (i : SlotId) (m : MergeEntry) :
    mergedEntry m (ungrouped s i).slots[i] = mergedEntry m s.slots[i] := by
  rw [ungrouped_self]
  simp only [mergedEntry]

theorem ungrouped_timeBase (s : State) (i : SlotId) : (ungrouped s i).timeBase = s.timeBase := by simp [ungrouped]

/-- The reasons that the action itself adds: FULL, CONFIRM and DRAIN_CMD (R77, R80, R92, R95). -/
def actionReasons (full confirm drain : Bool) : List Reason :=
  reasonIf full .full ++ reasonIf confirm .confirm ++ reasonIf drain .drainCmd

theorem mergeBase_posted (m : MergeEntry) (x : Slot) (i : SlotId) : mergeBase m x i false = mergedEntry m x := by
  simp only [mergeBase, mergedEntry, Bool.false_eq_true, if_false, List.append_nil]

/-- A merge keeps what the statements name of the entry before any reason. -/
theorem mergeBase_frame (m : MergeEntry) (x : Slot) (i : SlotId) (confirm : Bool) :
    let n := mergeBase m x i confirm
    n.state = m.state ∧ n.line = m.line ∧ n.window = m.window ∧ n.epoch = m.epoch ∧ n.firstMerge = m.firstMerge ∧
    n.reasons = m.reasons ∧ n.demandTime = m.demandTime ∧ n.memTag = m.memTag := by
  have hframe := mergedEntry_frame m x
  rw [mergeBase]
  generalize mergedEntry m x = y at hframe ⊢
  exact hframe

theorem mergeBase_merged (m : MergeEntry) (x : Slot) (i : SlotId) (confirm : Bool) :
    Merged x m (mergeBase m x i confirm) :=
  Merged.congr (mergedEntry_merged m x) rfl rfl rfl

theorem entryLive_congr {m n : MergeEntry} (h : n.state = m.state) : entryLive n = entryLive m := by
  rw [entryLive, entryLive, h]

/-- The slot stands at the back of the confirmations of an entry that has taken reasons (R80). -/
theorem awaitDrain_entries {s : State} {i : SlotId} {es : Vector MergeEntry 16} {e : EntryId} {x : MergeEntry}
    {rs : List Reason} {now : Time} (h : s.entries = put es e (withReasons rs now x)) :
    (awaitDrain s i e).entries = put es e (withReasons rs now { x with waiting := x.waiting ++ [i] }) := by
  obtain ⟨-, -, -, -, -, -, -, hwaiting, -⟩ := withReasons_frame rs now x
  simp only [awaitDrain, setEntry_entries, setSlot_entries, h, get_put_self, put_put]
  rw [withReasons_waiting, hwaiting]

/-- The entries after a merge into the line's entry (R79, R80). -/
theorem acted_merge_entries (s : State) (i : SlotId) (m : EntryId) (confirm : Bool) :
    let base := mergeBase s.entries[m] s.slots[i] i confirm
    (acted s i (if confirm then .mergeWait m else .merge m)).entries =
      put s.entries m (withReasons (actionReasons (lanesFull base.valid) confirm false) s.timeBase base) := by
  intro base
  have hmerged := mergeInto_entries (ungrouped s i) i m
  obtain ⟨-, -, -, -, -, -, -, hentries⟩ := ungrouped_frame s i
  rw [ungrouped_merges, ungrouped_timeBase, hentries] at hmerged
  cases confirm with
  | false =>
    have hacted : (acted s i (.merge m)).entries = (mergeInto (ungrouped s i) i m).entries := by
      simp only [acted, doAction, doMerge, finishOk_frame]
    simp only [Bool.false_eq_true, if_false, base, mergeBase_posted, actionReasons, reasonIf, List.append_nil]
    exact hacted.trans hmerged
  | true =>
    let v := awaitDrain (mergeInto (ungrouped s i) i m) i m
    have hbase : base = { mergedEntry s.entries[m] s.slots[i] with
        waiting := (mergedEntry s.entries[m] s.slots[i]).waiting ++ [i] } := by
      rw [mergedEntry_waiting]
      rfl
    have htime : v.timeBase = s.timeBase := by simp [v, ungrouped]
    have hwaits : v.entries = put s.entries m (withReasons (reasonIf (lanesFull base.valid) .full) v.timeBase base) := by
      rw [htime, hbase]
      exact awaitDrain_entries hmerged
    have hconfirm := addReasonIf_entries hwaits true .confirm
    rw [if_pos rfl, htime] at hconfirm
    rw [actionReasons, show reasonIf false Reason.drainCmd = [] from rfl, List.append_nil]
    exact hconfirm

/-- The entries after an allocation: the entry opened, and the WRITE merged into it (R77). -/
theorem acted_allocate_entries (s : State) (i : SlotId) (m : EntryId) :
    let base := mergedEntry (allocatedEntry s.slots[i] s.timeBase) s.slots[i]
    (acted s i (.allocate m)).entries =
      put s.entries m (withReasons (actionReasons (lanesFull base.valid) false (s.part == .draining)) s.timeBase base) := by
  intro base
  let u := ungrouped s i
  let v := setMergeRef (setEntry u m (allocatedEntry u.slots[i] u.timeBase)) u.slots[i].line (some m)
  obtain ⟨-, -, -, -, -, -, -, hentries⟩ := ungrouped_frame s i
  have hopened : v.entries = put s.entries m (allocatedEntry s.slots[i] s.timeBase) := by
    simp only [v, u, setMergeRef_frame, setEntry_entries, hentries, ungrouped_self, ungrouped_timeBase]
    rfl
  have hslot : mergedEntry (allocatedEntry s.slots[i] s.timeBase) v.slots[i] = base := by
    simp only [v, u, setMergeRef_frame, setEntry_slots]
    exact ungrouped_merges s i _
  have htime : (doMerge v i m).timeBase = s.timeBase := by simp [v, u, ungrouped]
  have hmerged : (doMerge v i m).entries =
      put s.entries m (withReasons (reasonIf (lanesFull base.valid) .full) (doMerge v i m).timeBase base) := by
    have hvtime : v.timeBase = s.timeBase := by simp [v, u, ungrouped]
    rw [htime]
    simp only [doMerge, finishOk_frame]
    rw [mergeInto_entries, hopened, get_put_self, hslot, put_put, hvtime]
  have hpart : (doMerge v i m).part = s.part := by simp [v, u, ungrouped]
  have hdrain := addReasonIf_entries hmerged (s.part == .draining) .drainCmd
  rw [htime] at hdrain
  have hacted : acted s i (.allocate m) =
      if (s.part == .draining) = true then addReason (doMerge v i m) m .drainCmd else doMerge v i m := by
    rw [← hpart]
    rfl
  rw [hacted, hdrain, actionReasons, reasonIf, reasonIf, reasonIf, if_neg Bool.false_ne_true, List.append_nil]

/-! ## The merged entry after its grant (R72, R91, R150) -/

/-- A STRICT READ leads the line's list. -/
def strictLeads (s : State) (line : LineAddr) : Bool :=
  (leadingReads s line).any (fun j => s.slots[j].forwarding == .strict)

/-- The entry that a grant leaves, where its action merges to `base`. -/
def mergeOutcome (s t : State) (i : SlotId) (base : MergeEntry) (confirm drain : Bool) : MergeEntry :=
  withReasons (mergeReasons (lanesFull base.valid) confirm drain (strictLeads t s.slots[i].line)
    (anyOf fun k => fenceHoldsSlot s.fences[k] i)) s.timeBase base

/-- The line's part of a grant adds STRICT_READ and FENCE to the entry that the action merged into. -/
theorem joined_entries {s : State} {i : SlotId} {a : Action} {m : EntryId} {base : MergeEntry} {confirm drain : Bool}
    (ha : mergeTarget a = some m) (href : mergeRef (acted s i a) s.slots[i].line = some m)
    (hacted : (acted s i a).entries =
      put s.entries m (withReasons (actionReasons (lanesFull base.valid) confirm drain) s.timeBase base))
    (cls : ClassId) (rr : Bool) : (joinIfMerged (judgeStrict (acted s i a) s.slots[i].line) i a).entries =
      put s.entries m (mergeOutcome s (grantSlot s i a cls rr) i base confirm drain) := by
  let u := judgeStrict (acted s i a) s.slots[i].line
  have htime : (acted s i a).timeBase = s.timeBase := by simp [acted, ungrouped]
  have hleads : strictLeads (grantSlot s i a cls rr) s.slots[i].line = strictLeads (acted s i a) s.slots[i].line := by
    rw [strictLeads, strictLeads, grantSlot_leadingReads_held href, grantSlot_slots]
  have hstrict : u = if strictLeads (acted s i a) s.slots[i].line = true then addReason (acted s i a) m .strictRead
      else acted s i a := by
    simp only [u, judgeStrict, href]
    rfl
  rw [← htime] at hacted
  have hu := addReasonIf_entries hacted (strictLeads (acted s i a) s.slots[i].line) .strictRead
  rw [← hstrict] at hu
  let w := mapFences u (joinedFence i m)
  have hw : w.timeBase = (acted s i a).timeBase := by simp [w, u]
  have hjoin : joinIfMerged u i a =
      if (anyOf fun k => fenceHoldsSlot s.fences[k] i) = true then addReason w m .fence else w := by
    rw [← judgeStrict_acted_fences s i a, joinIfMerged, ha]
    rfl
  have hentries : w.entries = u.entries := rfl
  rw [← hentries, ← hw] at hu
  have hfence := addReasonIf_entries hu (anyOf fun k => fenceHoldsSlot s.fences[k] i) .fence
  rw [← hjoin, hw, htime, ← hleads] at hfence
  exact hfence

/-- The reasons of the merged entry are those that R91 names. -/
theorem mergeOutcome_reasons {s t : State} {i : SlotId} {before base : MergeEntry} {confirm allocating drain : Bool}
    (live : entryLive base = true) (state : base.state = before.state) (reasons : base.reasons = before.reasons)
    (demandTime : base.demandTime = before.demandTime) (hdrain : drain = true ↔ allocating = true ∧ s.part = .draining) :
    ReasonsAfterMerge s t i confirm allocating before (mergeOutcome s t i base confirm drain) := by
  refine reasonsAfterMerge_of live state reasons demandTime fun r => ?_
  obtain ⟨-, -, hvalid, -⟩ := withReasons_frame (mergeReasons (lanesFull base.valid) confirm drain
    (strictLeads t s.slots[i].line) (anyOf fun k => fenceHoldsSlot s.fences[k] i)) s.timeBase base
  rw [mem_mergeReasons, AddsOnMerge, hvalid, lanesFull_iff, hdrain, anyOf_iff]
  simp only [fenceHoldsSlot_iff, strictLeads]

theorem grantSlot_joinsWaitSets {a : Action} {m : EntryId} (ha : mergeTarget a = some m) (s : State) (i : SlotId)
    (cls : ClassId) (rr : Bool) : EntryJoinsWaitSets s (grantSlot s i a cls rr) i m := by
  intro k
  rw [grantSlot_fences_merged ha, joinedFence, ← fenceHoldsSlot_iff]
  by_cases hk : fenceHoldsSlot s.fences[k] i = true
  · rw [if_pos hk]
    refine ⟨fun _ => ⟨rfl, fun e => ?_⟩, fun hno => absurd hk hno⟩
    rw [mem_addTo (List.mem_finRange e), or_comm]
  · rw [if_neg hk]
    exact ⟨fun h => absurd h hk, fun _ => rfl⟩

/-- A grant that merges issues no op and counts in MERGED_WRITES. -/
theorem grantSlot_merge_ops {a : Action} {m : EntryId} (ha : mergeTarget a = some m) (s : State) (i : SlotId)
    (cls : ClassId) (rr : Bool) : (grantSlot s i a cls rr).tags = s.tags ∧ (grantSlot s i a cls rr).issued = s.issued ∧
      (grantSlot s i a cls rr).counters.mergedWrites = satAdd s.counters.mergedWrites 1 := by
  obtain ⟨htags, hissued⟩ := grantSlot_ops s i a cls rr
  rw [htags, hissued, grantSlot_counters]
  cases a with
  | merge _ | mergeWait _ | allocate _ => simp [acted, doAction, ungrouped]
  | forward _ | overlayRead _ | plainRead | direct => cases ha

/-- The slot that a merge leaves: it waits for the drain, or is DONE with OK (R77, R79, R80). -/
theorem grantSlot_merge_slot {a : Action} {m : EntryId} (ha : mergeTarget a = some m) (s : State) (i : SlotId)
    (cls : ClassId) (rr : Bool) : (grantSlot s i a cls rr).slots[i] = { s.slots[i] with
      effCls := none, state := if a = .mergeWait m then .waitDrain else .done
      status := if a = .mergeWait m then s.slots[i].status else some .ok } := by
  rw [grantSlot_slots]
  cases a with
  | merge e =>
    simp only [acted, doAction, doMerge_slots, get_put_self, ungrouped_self, reduceCtorEq, if_false]
    rfl
  | mergeWait e =>
    cases ha
    have hslots : (doMergeWait (ungrouped s i) i m).slots =
        put (ungrouped s i).slots i { (ungrouped s i).slots[i] with state := .waitDrain } := by
      simp [doMergeWait, awaitDrain, setSlot]
    simp only [acted, doAction, hslots, get_put_self, ungrouped_self, if_true]
  | allocate e =>
    simp only [acted, doAction, doAllocate, drainCmdIfDraining_frame, doMerge_slots, setMergeRef_frame, setEntry_slots,
      get_put_self, ungrouped_self, reduceCtorEq, if_false]
    rfl
  | forward _ | overlayRead _ | plainRead | direct => cases ha

/-- The answer of a merge is ready at once, but for one that waits for the drain. -/
theorem grantSlot_merge_responses {s : State} {i : SlotId} {a : Action} {m : EntryId} {cls : ClassId} {rr : Bool}
    (hchoose : choose s = some (.slot i a cls rr)) (ha : mergeTarget a = some m) :
    (publish s (grantSlot s i a cls rr)).responses = s.responses ++ readyRefs s (grantSlot s i a cls rr) ∧
    ∀ ref, ref ∈ readyRefs s (grantSlot s i a cls rr) ↔ a ≠ .mergeWait m ∧ ref = .slot i := by
  obtain ⟨-, hresponses⟩ := grantSlot_lists s i a cls rr
  refine ⟨by rw [publish_responses, hresponses], fun ref => ?_⟩
  rw [mem_readyRefs_grantSlot hchoose, grantSlot_merge_slot ha, and_comm]
  refine and_congr_left' ?_
  dsimp only
  split
  · next hwait => exact ⟨nofun, fun hno => absurd hwait hno⟩
  · next hno => exact ⟨fun _ => hno, fun _ => rfl⟩

/-- What the merged entry keeps of the entry before its reasons. -/
theorem mergeOutcome_frame (s t : State) (i : SlotId) (base : MergeEntry) (confirm drain : Bool) :
    let n := mergeOutcome s t i base confirm drain
    n.line = base.line ∧ n.data = base.data ∧ n.valid = base.valid ∧ n.contributors = base.contributors ∧
    n.window = base.window ∧ n.epoch = base.epoch ∧ n.firstMerge = base.firstMerge ∧ n.waiting = base.waiting ∧
    n.memTag = base.memTag := withReasons_frame _ _ _

/-- Settles O31: the entry is the merged one with the reasons of R91, and the slot is DONE or waits for the drain. -/
theorem writeIsMerged : Obligations.WriteIsMerged := by
  intro s i a m e rr hr hchoose ha confirm
  obtain ⟨-, -, hfits, -⟩ := grantableAction_iff.1 (choose_slot hchoose)
  have htarget : mergeTarget a = some m := by rcases ha with rfl | rfl <;> rfl
  have hshape : a = if confirm then .mergeWait m else .merge m := by
    rcases ha with rfl | rfl <;> simp [confirm]
  obtain ⟨hs, hlive⟩ : mergeRef s s.slots[i].line = some m ∧ entryLive s.entries[m] = true := by
    rcases ha with rfl | rfl
    · obtain ⟨-, -, hfits⟩ := hfits
      exact hfits
    · obtain ⟨-, -, hfits⟩ := hfits
      exact hfits
  have href : mergeRef (acted s i a) s.slots[i].line = some m :=
    (acted_mergeRef s i (by rcases ha with rfl | rfl <;> nofun)).trans hs
  let base := mergeBase s.entries[m] s.slots[i] i confirm
  let t := grantSlot s i a e rr
  let n := mergeOutcome s t i base confirm false
  have hacted : (acted s i a).entries =
      put s.entries m (withReasons (actionReasons (lanesFull base.valid) confirm false) s.timeBase base) := by
    rw [hshape]
    exact acted_merge_entries s i m confirm
  have hentries : t.entries = put s.entries m n := by
    have hpressure (u : State) : pressureIfAllocated u a = u := by rcases ha with rfl | rfl <;> rfl
    rw [← joined_entries htarget href hacted e rr]
    simp only [t, grantSlot_eq, account_frame, followLine, tidyLine_frame, hpressure]
  have hentry : (publish s t).entries[m] = n := by
    show t.entries[m] = n
    rw [hentries, get_put_self]
  obtain ⟨hstate, hline, hwindow, hepoch, hfirst, hreasons, hdemand, htag⟩ :=
    mergeBase_frame s.entries[m] s.slots[i] i confirm
  obtain ⟨nline, ndata, nvalid, ncontributors, nwindow, nepoch, nfirst, nwaiting, ntag⟩ :=
    mergeOutcome_frame s t i base confirm false
  have hbase : entryLive base = true := (entryLive_congr hstate).trans hlive
  have hmerges : ReasonsAfterMerge s (publish s t) i confirm false s.entries[m] n :=
    mergeOutcome_reasons (t := publish s t) hbase hstate hreasons hdemand (by simp)
  obtain ⟨htags, hissued, hcounter⟩ := grantSlot_merge_ops htarget s i e rr
  obtain ⟨hresponses, hready⟩ := grantSlot_merge_responses hchoose htarget
  refine ⟨publish s t, readyRefs s t, exec_grant_slot hr hchoose, ?_⟩
  rw [hentry]
  have hmerged : Merged s.slots[i] s.entries[m] base := mergeBase_merged s.entries[m] s.slots[i] i confirm
  refine ⟨Merged.congr hmerged ndata nvalid ncontributors, hmerges,
    grantSlot_joinsWaitSets htarget s i e rr, nline.trans hline, nwindow.trans hwindow, nepoch.trans hepoch,
    nfirst.trans hfirst, ntag.trans htag, nwaiting, fun d hd => ?_, ?_, hresponses, fun ref => ?_, hcounter, htags, hissued⟩
  · show t.entries[d] = _
    rw [hentries, get_put_ne _ _ hd]
  · show t.slots[i] = _
    rw [grantSlot_merge_slot htarget]
    simp only [confirm, decide_eq_true_eq]
  · rw [hready, decide_eq_false_iff_not]

/-- Settles O32: the entry is the opened one with the WRITE merged in, and PRESSURE is judged over it. -/
theorem entryIsAllocated : Obligations.EntryIsAllocated := by
  intro s i m e rr hr hchoose hmem x opened
  obtain ⟨-, -, ⟨-, -, -, hfree, hlowest⟩, -⟩ := grantableAction_iff.1 (choose_slot hchoose)
  have htarget : mergeTarget (.allocate m) = some m := rfl
  have hsome := findLine_isSome_of_mem hmem
  let base := mergedEntry (allocatedEntry x s.timeBase) x
  let t := grantSlot s i (.allocate m) e rr
  let n := mergeOutcome s t i base false (s.part == .draining)
  have hjoined := joined_entries htarget (acted_mergeRef_allocate hsome m) (acted_allocate_entries s i m) e rr
  have hentries : t.entries = pressured s.active.mergeReserve.toNat s.timeBase (put s.entries m n) := by
    let u := joinIfMerged (judgeStrict (acted s i (.allocate m)) x.line) i (.allocate m)
    have hsame : u.timeBase = s.timeBase ∧ u.active = s.active := by simp [u, acted, ungrouped]
    have hpressure : t.entries = (judgePressure u).entries := by
      simp only [t, grantSlot_eq, account_frame, followLine, tidyLine_frame]
      rfl
    obtain ⟨htime, hactive⟩ := hsame
    rw [hpressure, judgePressure_entries, htime, hactive]
    exact congrArg _ hjoined
  obtain ⟨hstate, hline, hwindow, hepoch, hfirst, hreasons, hdemand, htag⟩ :=
    mergedEntry_frame (allocatedEntry x s.timeBase) x
  obtain ⟨nline, ndata, nvalid, ncontributors, nwindow, nepoch, nfirst, nwaiting, ntag⟩ :=
    mergeOutcome_frame s t i base false (s.part == .draining)
  have hbase : entryLive base = true := entryLive_iff.2 (.inl hstate)
  have hmerges : ReasonsAfterMerge s (publish s t) i false true opened n :=
    mergeOutcome_reasons (t := publish s t) hbase hstate hreasons hdemand (by simp)
  have hmerged : Merged x opened base := mergedEntry_merged (allocatedEntry x s.timeBase) x
  have hwaiting : base.waiting = [] := mergedEntry_waiting _ _
  obtain ⟨htags, hissued, hcounter⟩ := grantSlot_merge_ops htarget s i e rr
  obtain ⟨hresponses, hready⟩ := grantSlot_merge_responses hchoose htarget
  have hslot := grantSlot_merge_slot htarget s i e rr
  rw [if_neg nofun, if_neg nofun] at hslot
  exact ⟨publish s t, readyRefs s t, n, exec_grant_slot hr hchoose, hfree, hlowest,
    Merged.congr hmerged ndata nvalid ncontributors, hmerges, grantSlot_joinsWaitSets htarget s i e rr, nline.trans hline,
    nwindow.trans hwindow, nepoch.trans hepoch, nfirst.trans hfirst, nwaiting.trans hwaiting, ntag.trans htag, hentries,
    grantSlot_mergeRef_allocate hsome m e rr, hslot, hresponses,
    fun ref => (hready ref).trans (and_iff_right nofun), hcounter, htags, hissued⟩

end Sys2Proof.Machine

/-! PROOFS. The write merge buffer: what every step keeps of its entries and of the part states, the issue of a direct write
and of a drain, and the judgements of a step with the timeouts they take (O33, O34, O42, O44, O45, O52, O55). -/

namespace Sys2Proof.Machine

-- One proof at a time: elaborated in parallel they need more memory than the check has.
set_option Elab.async false

/-! ## The law of entries in parts (R75, R76, R84, R91, R94) -/

/-- What the law says of one entry: where it is not FREE it holds a lane and posted data, an OPEN one no reason and a
DRAIN_PENDING one some reason, and a demand time exactly with a demanded reason. -/
def EntrySound (m : MergeEntry) : Prop :=
  m.state ≠ .free →
    lanesAny m.valid = true ∧ (∃ i : InitiatorId, m.contributors[i] = some .posted) ∧
    (m.state = .opened → m.reasons = []) ∧ (m.state = .drainPending → m.reasons ≠ []) ∧
    (m.demandTime.isSome = true ↔ ∃ r ∈ m.reasons, demanded r = true)

/-- An entry that is not FREE holds PRESSURE. -/
def HoldsPressure (m : MergeEntry) : Prop := m.state ≠ .free ∧ .pressure ∈ m.reasons

/-- One entry at most holds PRESSURE (R94). -/
def PressureOnce (es : Vector MergeEntry 16) : Prop :=
  ∀ e e' : EntryId, HoldsPressure es[e] → HoldsPressure es[e'] → e = e'

/-- A QUEUED WRITE has a written lane (R36). -/
def WritesHoldLane (slots : Vector Slot 48) : Prop :=
  ∀ i : SlotId, slots[i].state = .queued → slots[i].kind = .write → lanesAny slots[i].lanes = true

theorem entryLaw_iff {s : State} : EntryLaw s ↔
    (∀ e : EntryId, EntrySound s.entries[e]) ∧ PressureOnce s.entries ∧ WritesHoldLane s.slots := by
  refine and_congr_right fun _ => and_congr_left fun _ => forall_congr' fun e => forall_congr' fun e' => ?_
  exact ⟨fun h hp hp' => h hp.1 hp'.1 hp.2 hp'.2, fun h hf hf' hp hp' => h ⟨hf, hp⟩ ⟨hf', hp'⟩⟩

/-! ## What an event makes of an entry

An entry that is not FREE takes reasons, lanes and confirmations, goes to DRAINING, or becomes FREE. `EntryStep` says of
this what the laws read; only an allocation makes an entry live. -/

/-- The entry stays sound; where it takes reasons still, it did before, and it keeps its age and the reasons it held. -/
structure EntryStep (m n : MergeEntry) : Prop where
  sound : EntrySound m → EntrySound n
  live : entryLive n = true → entryLive m = true ∧ n.firstMerge = m.firstMerge ∧ ∀ r ∈ m.reasons, r ∈ n.reasons

theorem EntryStep.refl (m : MergeEntry) : EntryStep m m := ⟨id, fun h => ⟨h, rfl, fun _ hr => hr⟩⟩

theorem EntryStep.trans {m n o : MergeEntry} (h : EntryStep m n) (h' : EntryStep n o) : EntryStep m o where
  sound hm := h'.sound (h.sound hm)
  live ho := by
    obtain ⟨hn, hfirst', hkeeps'⟩ := h'.live ho
    obtain ⟨hm, hfirst, hkeeps⟩ := h.live hn
    exact ⟨hm, hfirst'.trans hfirst, fun r hr => hkeeps' r (hkeeps r hr)⟩

theorem entrySound_of_free {m : MergeEntry} (h : m.state = .free) : EntrySound m := fun hne => absurd h hne

theorem entryLive_of_free {m : MergeEntry} (h : m.state = .free) : entryLive m = false := by
  rw [entryLive, h]
  rfl

/-- An entry becomes FREE. -/
theorem EntryStep.of_free {m n : MergeEntry} (h : n.state = .free) : EntryStep m n where
  sound _ := entrySound_of_free h
  live hn := by rw [entryLive_of_free h] at hn; cases hn

/-- What changes nothing that the laws read of an entry. -/
theorem EntryStep.of_eq {m n : MergeEntry} (state : n.state = m.state) (valid : n.valid = m.valid)
    (contributors : n.contributors = m.contributors) (reasons : n.reasons = m.reasons)
    (demandTime : n.demandTime = m.demandTime) (firstMerge : n.firstMerge = m.firstMerge) : EntryStep m n where
  sound h := by
    unfold EntrySound at h ⊢
    rwa [state, valid, contributors, reasons, demandTime]
  live h := ⟨(entryLive_congr state).symm.trans h, firstMerge, fun r hr => by rwa [reasons]⟩

/-- A sound entry that takes a reason is DRAIN_PENDING with it, and holds a demand time with a demanded one. -/
theorem withReason_sound {m : MergeEntry} (h : EntrySound m) (r : Reason) (now : Time) :
    EntrySound (withReason m r now) := by
  by_cases hlive : entryLive m = true
  · have hne : m.state ≠ .free := fun hf => by rw [entryLive_of_free hf] at hlive; cases hlive
    obtain ⟨hvalid, hposted, -, -, hdemand⟩ := h hne
    have hmem (x : Reason) := mem_withReason hlive r x now
    have htime : (withReason m r now).demandTime.isSome = true ↔ demanded r = true ∨ m.demandTime.isSome = true := by
      rw [withReason_live hlive]
      cases demanded r <;> cases m.demandTime <;> simp
    have hdemanded : (∃ x ∈ (withReason m r now).reasons, demanded x = true) ↔
        demanded r = true ∨ ∃ x ∈ m.reasons, demanded x = true := by
      simp only [hmem, or_and_right, exists_or, exists_eq_left]
    intro _
    refine ⟨?_, ?_, fun hopened => ?_, fun _ hnil => ?_, by rw [htime, hdemanded, hdemand]⟩
    · rw [withReason_frame]
      exact hvalid
    · rw [withReason_frame]
      exact hposted
    · rw [withReason_live hlive] at hopened
      cases hopened
    · have hr := (hmem r).2 (.inl rfl)
      rw [hnil] at hr
      cases hr
  · rw [withReason_other (by simpa using hlive)]
    exact h

theorem withReason_step (m : MergeEntry) (r : Reason) (now : Time) : EntryStep m (withReason m r now) where
  sound h := withReason_sound h r now
  live h := by
    by_cases hlive : entryLive m = true
    · exact ⟨hlive, by rw [withReason_frame], fun x hx => (mem_withReason hlive r x now).2 (.inr hx)⟩
    · rw [withReason_other (by simpa using hlive)] at h
      exact absurd h hlive

theorem withReasons_step (m : MergeEntry) (rs : List Reason) (now : Time) : EntryStep m (withReasons rs now m) := by
  induction rs generalizing m with
  | nil => exact .refl m
  | cons r rs ih => exact (withReason_step m r now).trans (ih _)

/-- Of the reasons PRESSURE alone brings PRESSURE. -/
theorem withReason_holdsPressure {m : MergeEntry} {r : Reason} {now : Time} (hr : r ≠ .pressure)
    (h : HoldsPressure (withReason m r now)) : HoldsPressure m := by
  by_cases hlive : entryLive m = true
  · obtain ⟨-, hp⟩ := h
    refine ⟨fun hf => ?_, ((mem_withReason hlive r _ now).1 hp).resolve_left (Ne.symm hr)⟩
    rw [entryLive_of_free hf] at hlive
    cases hlive
  · rwa [withReason_other (by simpa using hlive)] at h

theorem withReasons_holdsPressure {m : MergeEntry} {rs : List Reason} {now : Time} (hrs : .pressure ∉ rs)
    (h : HoldsPressure (withReasons rs now m)) : HoldsPressure m := by
  induction rs generalizing m with
  | nil => exact h
  | cons r rs ih =>
    obtain ⟨hr, hrest⟩ := not_or.1 (List.mem_cons.not.1 hrs)
    exact withReason_holdsPressure (Ne.symm hr) (ih hrest h)

/-! ## What an event makes of the entries -/

/-- Every entry takes a step, and no second entry comes to hold PRESSURE. -/
structure EntriesStep (s t : State) : Prop where
  entry : ∀ e : EntryId, EntryStep s.entries[e] t.entries[e]
  pressure : PressureOnce s.entries → PressureOnce t.entries

theorem EntriesStep.of_eq {s t : State} (h : t.entries = s.entries := by simp) : EntriesStep s t where
  entry e := by rw [h]; exact .refl _
  pressure hp := by rwa [h]

theorem EntriesStep.trans {s t u : State} (h : EntriesStep s t) (h' : EntriesStep t u) : EntriesStep s u :=
  ⟨fun e => (h.entry e).trans (h'.entry e), fun hp => h'.pressure (h.pressure hp)⟩

/-- No entry comes to hold PRESSURE. -/
theorem EntriesStep.of_entry {s t : State} (entry : ∀ e : EntryId, EntryStep s.entries[e] t.entries[e])
    (pressure : ∀ e : EntryId, HoldsPressure t.entries[e] → HoldsPressure s.entries[e]) : EntriesStep s t :=
  ⟨entry, fun h e e' hp hp' => h e e' (pressure e hp) (pressure e' hp')⟩

/-- One entry changes, and comes to hold no PRESSURE. -/
theorem EntriesStep.of_put {s t : State} {e : EntryId} {m : MergeEntry} (entries : t.entries = put s.entries e m)
    (entry : EntryStep s.entries[e] m) (pressure : HoldsPressure m → HoldsPressure s.entries[e]) : EntriesStep s t := by
  have hget (d : EntryId) : t.entries[d] = if d = e then m else s.entries[d] := by rw [entries, get_put]
  refine .of_entry (fun d => ?_) fun d hp => ?_
  · rw [hget]
    split
    · next hd => rw [hd]; exact entry
    · exact .refl _
  · rw [hget] at hp
    split at hp
    · next hd => rw [hd]; exact pressure hp
    · exact hp

theorem forEach_entriesStep {n : Nat} {f : State → Fin n → State} (step : ∀ t i, EntriesStep t (f t i)) (s : State) :
    EntriesStep s (forEach s f) :=
  forEach_keeps (P := EntriesStep s) (fun t i h => h.trans (step t i)) .of_eq

/-! ### Reasons -/

theorem addReason_entriesStep (s : State) (e : EntryId) {r : Reason} (hr : r ≠ .pressure) :
    EntriesStep s (addReason s e r) :=
  .of_put rfl (withReason_step _ r _) (withReason_holdsPressure hr)

/-- PRESSURE is taken where no entry that is not FREE holds it. -/
theorem judgePressure_entriesStep (s : State) : EntriesStep s (judgePressure s) := by
  obtain ⟨e, hc, -, h⟩ | ⟨-, h⟩ := judgePressure_spec s
  · obtain ⟨-, hnone⟩ := pressureCondition_iff.1 hc
    have hget (d : EntryId) : (judgePressure s).entries[d] =
        if d = e then withReason s.entries[e] .pressure s.timeBase else s.entries[d] := by
      rw [h, addReason_entries, get_put]
    have honly {d : EntryId} (hd : HoldsPressure (judgePressure s).entries[d]) : d = e := by
      by_contra hne
      rw [hget, if_neg hne] at hd
      exact hnone d hd.1 hd.2
    refine ⟨fun d => ?_, fun _ d d' hd hd' => (honly hd).trans (honly hd').symm⟩
    rw [hget]
    split
    · next hd => rw [hd]; exact withReason_step _ _ _
    · exact .refl _
  · rw [h]
    exact .of_eq

theorem judgeStrict_entriesStep (s : State) (a : LineAddr) : EntriesStep s (judgeStrict s a) := by
  unfold judgeStrict
  split
  · split
    · exact addReason_entriesStep s _ nofun
    · exact .of_eq
  · exact .of_eq

theorem judgeAged_entriesStep (s : State) (e : EntryId) : EntriesStep s (judgeAged s e) := by
  unfold judgeAged
  split
  · exact addReason_entriesStep s e nofun
  · exact .of_eq

theorem judgeAllAged_entriesStep (s : State) : EntriesStep s (judgeAllAged s) :=
  forEach_entriesStep judgeAged_entriesStep s

theorem demandAll_entriesStep (s : State) : EntriesStep s (demandAll s) :=
  forEach_entriesStep (fun t e => addReason_entriesStep t e (r := .drainCmd) nofun) s

theorem demandFence_entriesStep (s : State) (es : List EntryId) : EntriesStep s (demandFence s es) := by
  unfold demandFence
  induction es generalizing s with
  | nil => exact .of_eq
  | cons e es ih => exact (addReason_entriesStep s e (r := .fence) nofun).trans (ih _)

/-! ### The end of an op -/

theorem free_holdsNoPressure : ¬ HoldsPressure MergeEntry.free := fun h => h.1 rfl

theorem freeEntry_entriesStep (s : State) (e : EntryId) : EntriesStep s (freeEntry s e) := by
  have hfreed : EntriesStep s (tidyLine (setMergeRef (departEntry (setEntry s e MergeEntry.free) e)
      s.entries[e].line none) s.entries[e].line) :=
    .of_put (e := e) (m := MergeEntry.free)
      (by simp only [tidyLine_frame, setMergeRef_frame, departEntry_frame, setEntry_entries])
      (.of_free rfl) fun h => absurd h free_holdsNoPressure
  exact hfreed.trans (judgePressure_entriesStep _)

theorem drainAnswered_entriesStep (s : State) (e : EntryId) (o : OpOutcome) : EntriesStep s (drainAnswered s e o) := by
  obtain ⟨sl, fl, ov, fr, fo, fe, h⟩ := drainAnswered_fields s e o
  rw [h]
  exact .of_put (e := e) rfl (.of_eq rfl rfl rfl rfl rfl rfl) id

theorem resolveSource_entriesStep (s : State) (src : Source) (o : OpOutcome) :
    EntriesStep s (resolveSource s src o) := by
  cases src with
  | slot i => exact .of_eq (by simp only [resolveSource, resolveSlot_frame])
  | entry e => exact (drainAnswered_entriesStep s e o).trans (freeEntry_entriesStep _ e)

theorem judgeTimeout_entriesStep (s : State) (τ : TagId) : EntriesStep s (judgeTimeout s τ) := by
  unfold judgeTimeout
  split
  · next op _ =>
    split
    · exact (resolveSource_entriesStep s op.source .timeout).trans (.of_eq (by simp [timeOut]))
    · exact .of_eq
  · exact .of_eq
  · exact .of_eq

theorem judgeAllTimeouts_entriesStep (s : State) : EntriesStep s (judgeAllTimeouts s) :=
  forEach_entriesStep judgeTimeout_entriesStep s

/-- The judgements of a COMMIT, before its end. -/
def commitJudged (s : State) : State :=
  judgeAllTimeouts (judgePressure (judgeAllAged (judgeAllUrgency (clampBalances (adoptStaged s)))))

theorem commitStaged_eq (s : State) : commitStaged s = conclude s (commitJudged s) := rfl

theorem commitJudged_entriesStep (s : State) : EntriesStep s (commitJudged s) := by
  have hset : EntriesStep s (judgeAllUrgency (clampBalances (adoptStaged s))) := .of_eq
  exact ((hset.trans (judgeAllAged_entriesStep _)).trans (judgePressure_entriesStep _)).trans
    (judgeAllTimeouts_entriesStep _)

theorem timeJudged_entriesStep (s : State) : EntriesStep s (timeJudged s) := by
  have hstart : EntriesStep s (judgeAllUrgency (judgeRefill (advanceTime s))) := .of_eq
  exact (hstart.trans (judgeAllAged_entriesStep _)).trans (judgeAllTimeouts_entriesStep _)

/-! ### A drain's grant, RESTART -/

/-- A DRAIN_PENDING entry that is granted its drain keeps all but its state and its tag. -/
theorem grantDrain_entriesStep {s : State} {e : EntryId} (h : s.entries[e].state = .drainPending) :
    EntriesStep s (grantDrain s e) := by
  have hne : s.entries[e].state ≠ .free := by rw [h]; nofun
  have hget := grantDrain_entries s e
  refine .of_entry (fun d => ?_) fun d hp => ?_
  · rw [hget]
    split
    · next hd =>
      rw [hd]
      refine ⟨fun hs _ => ?_, fun hl => by cases hl⟩
      obtain ⟨hvalid, hposted, -, -, hdemand⟩ := hs hne
      exact ⟨hvalid, hposted, nofun, nofun, hdemand⟩
    · exact .refl _
  · rw [hget] at hp
    split at hp
    · next hd => rw [hd]; exact ⟨hne, hp.2⟩
    · exact hp

theorem restarted_entriesStep (s : State) : EntriesStep s (restarted s) := by
  refine .of_entry (fun e => ?_) fun e hp => ?_
  · rw [restarted_entries]
    split
    · exact .of_free rfl
    · exact .of_eq rfl rfl rfl rfl rfl rfl
  · rw [restarted_entries] at hp
    split at hp
    · exact absurd hp free_holdsNoPressure
    · exact hp

/-! ### A slot's grant -/

theorem lanesAny_lanesUnion {a b : LaneMask} (h : lanesAny a = true ∨ lanesAny b = true) :
    lanesAny (lanesUnion a b) = true := by
  obtain ⟨l, hl⟩ : ∃ l : Lane, a[l] = true ∨ b[l] = true := by
    rcases h with h | h
    · exact (lanesAny_iff.1 h).imp fun _ => .inl
    · exact (lanesAny_iff.1 h).imp fun _ => .inr
  refine lanesAny_iff.2 ⟨l, ?_⟩
  rw [Fin.getElem_fin, get_lanesUnion]
  exact Bool.or_eq_true_iff.2 hl

/-- Data that is posted stays so in a merge (R78). -/
theorem mergedEntry_posted {m : MergeEntry} {i : InitiatorId} (h : m.contributors[i] = some .posted) (x : Slot) :
    (mergedEntry m x).contributors[i] = some .posted := by
  simp only [mergedEntry, get_put]
  split
  · next hi =>
    rw [hi] at h
    rw [h]
    cases x.mode <;> rfl
  · exact h

/-- A MERGE- or POST-mode WRITE posts its initiator's data (R78). -/
theorem mergedEntry_posts (m : MergeEntry) {x : Slot} (h : x.mode ≠ .confirm) :
    (mergedEntry m x).contributors[x.initiator] = some .posted := by
  simp only [mergedEntry, get_put_self]
  cases hm : x.mode with
  | merge => rfl
  | post => rfl
  | confirm => exact absurd hm h

theorem mergedEntry_valid (m : MergeEntry) (x : Slot) : (mergedEntry m x).valid = lanesUnion m.valid x.lanes := by
  simp only [mergedEntry]

theorem mergeBase_step (m : MergeEntry) (x : Slot) (i : SlotId) (confirm : Bool) :
    EntryStep m (mergeBase m x i confirm) := by
  obtain ⟨hstate, -, -, -, hfirst, hreasons, hdemand, -⟩ := mergeBase_frame m x i confirm
  refine ⟨fun hs => ?_, fun hl => ⟨(entryLive_congr hstate).symm.trans hl, hfirst, fun r hr => by rwa [hreasons]⟩⟩
  unfold EntrySound at hs ⊢
  rw [hstate, hreasons, hdemand]
  intro hne
  obtain ⟨hvalid, ⟨j, hj⟩, hrest⟩ := hs hne
  refine ⟨?_, ⟨j, mergedEntry_posted hj x⟩, hrest⟩
  show lanesAny (mergedEntry m x).valid = true
  rw [mergedEntry_valid]
  exact lanesAny_lanesUnion (.inl hvalid)

theorem actionReasons_noPressure (full confirm drain : Bool) : Reason.pressure ∉ actionReasons full confirm drain := by
  simp [actionReasons, mem_reasonIf]

/-- An action that allocates nothing takes each entry a step. -/
theorem acted_entriesStep (s : State) (i : SlotId) {a : Action} (ha : ∀ e, a ≠ .allocate e) :
    EntriesStep s (acted s i a) := by
  have hmerged (e : EntryId) (confirm : Bool) :
      EntriesStep s (acted s i (if confirm then .mergeWait e else .merge e)) := by
    obtain ⟨hstate, -, -, -, -, hreasons, -, -⟩ := mergeBase_frame s.entries[e] s.slots[i] i confirm
    refine .of_put (acted_merge_entries s i e confirm)
      ((mergeBase_step s.entries[e] s.slots[i] i confirm).trans (withReasons_step _ _ _)) fun hp => ?_
    obtain ⟨hne, hmem⟩ := withReasons_holdsPressure (actionReasons_noPressure _ _ _) hp
    rw [hstate] at hne
    rw [hreasons] at hmem
    exact ⟨hne, hmem⟩
  cases a with
  | merge e => exact hmerged e false
  | mergeWait e => exact hmerged e true
  | allocate e => exact absurd rfl (ha e)
  | forward _ | overlayRead _ | plainRead | direct => exact .of_eq (by simp [acted, doAction, ungrouped])

/-- The entry that an allocation opens holds the WRITE's lanes as posted data (R77). -/
theorem allocated_sound {x : Slot} (lane : lanesAny x.lanes = true) (mode : x.mode = .merge) (now : Time) :
    EntrySound (mergedEntry (allocatedEntry x now) x) := by
  obtain ⟨hstate, -, -, -, -, hreasons, hdemand, -⟩ := mergedEntry_frame (allocatedEntry x now) x
  intro _
  rw [hstate, hreasons, hdemand, mergedEntry_valid]
  refine ⟨lanesAny_lanesUnion (.inr lane), ⟨x.initiator, mergedEntry_posts _ (by rw [mode]; nofun)⟩, fun _ => rfl,
    nofun, ?_⟩
  simp [allocatedEntry, MergeEntry.free]

/-- The entry after an allocation's action, and the others. -/
theorem acted_allocate_entry (s : State) (i : SlotId) (e d : EntryId) :
    (acted s i (.allocate e)).entries[d] = if d = e then
        withReasons (actionReasons (lanesFull (mergedEntry (allocatedEntry s.slots[i] s.timeBase) s.slots[i]).valid) false
          (s.part == .draining)) s.timeBase (mergedEntry (allocatedEntry s.slots[i] s.timeBase) s.slots[i])
      else s.entries[d] := by
  rw [acted_allocate_entries, get_put]

theorem joinIfMerged_entriesStep (s : State) (i : SlotId) (a : Action) : EntriesStep s (joinIfMerged s i a) := by
  unfold joinIfMerged
  split
  · next e _ =>
    unfold joinWaitSets
    dsimp only
    split
    · exact (EntriesStep.of_eq (by simp)).trans (addReason_entriesStep _ e nofun)
    · exact .of_eq
  · exact .of_eq

theorem pressureIfAllocated_entriesStep (s : State) (a : Action) : EntriesStep s (pressureIfAllocated s a) := by
  cases a
  case allocate => exact judgePressure_entriesStep s
  all_goals exact .of_eq rfl

/-- After its action a grant takes each entry a step. -/
theorem grantSlot_entriesStep (s : State) (i : SlotId) (a : Action) (cls : ClassId) (rr : Bool) :
    EntriesStep (acted s i a) (grantSlot s i a cls rr) := by
  have htidy (t : State) : EntriesStep t (tidyLine t s.slots[i].line) := .of_eq
  have haccount (t : State) : EntriesStep t (account t s.slots[i].cls cls (chargeOf s.slots[i] a) rr) :=
    .of_eq (by simp only [account_frame])
  exact ((((judgeStrict_entriesStep _ _).trans (joinIfMerged_entriesStep _ i a)).trans
    (pressureIfAllocated_entriesStep _ a)).trans (htidy _)).trans (haccount _)

/-- A grant of an eligible slot keeps what the law says of the entries. -/
theorem grantSlot_entryLaw {s : State} (hsound : ∀ e : EntryId, EntrySound s.entries[e])
    (hpressure : PressureOnce s.entries) (hlane : WritesHoldLane s.slots) {i : SlotId} {a : Action}
    (h : grantableAction s i = some a) (cls : ClassId) (rr : Bool) :
    (∀ e : EntryId, EntrySound (grantSlot s i a cls rr).entries[e]) ∧ PressureOnce (grantSlot s i a cls rr).entries := by
  obtain ⟨hqueued, -, hfits, -⟩ := grantableAction_iff.1 h
  have hafter := grantSlot_entriesStep s i a cls rr
  suffices hacted : (∀ e : EntryId, EntrySound (acted s i a).entries[e]) ∧ PressureOnce (acted s i a).entries by
    obtain ⟨hs, hp⟩ := hacted
    exact ⟨fun e => (hafter.entry e).sound (hs e), hafter.pressure hp⟩
  by_cases ha : ∃ e, a = .allocate e
  · obtain ⟨e, rfl⟩ := ha
    obtain ⟨hkind, hmode, -, -, -⟩ := hfits
    have hbase := allocated_sound (hlane i hqueued hkind) hmode s.timeBase
    have hnone : ¬ HoldsPressure (mergedEntry (allocatedEntry s.slots[i] s.timeBase) s.slots[i]) := by
      rintro ⟨-, hp⟩
      cases hp
    have hother {d : EntryId} (hp : HoldsPressure (acted s i (.allocate e)).entries[d]) : HoldsPressure s.entries[d] := by
      rw [acted_allocate_entry] at hp
      split at hp
      · exact absurd (withReasons_holdsPressure (actionReasons_noPressure _ _ _) hp) hnone
      · exact hp
    refine ⟨fun d => ?_, fun d d' hd hd' => hpressure d d' (hother hd) (hother hd')⟩
    rw [acted_allocate_entry]
    split
    · exact (withReasons_step _ _ _).sound hbase
    · exact hsound d
  · have hstep := acted_entriesStep s i (a := a) fun e he => ha ⟨e, he⟩
    exact ⟨fun e => (hstep.entry e).sound (hsound e), hstep.pressure hpressure⟩

/-! ## Slots that wait and fences that wait: only an acceptance and a grant add to them -/

/-- No slot becomes QUEUED or WAIT_DRAIN. -/
def SlotsSettle (s t : State) : Prop :=
  ∀ i : SlotId, t.slots[i].state = .queued ∨ t.slots[i].state = .waitDrain → s.slots[i].state = t.slots[i].state

theorem SlotsSettle.of_eq {s t : State} (h : t.slots = s.slots := by simp) : SlotsSettle s t := fun i _ => by rw [h]

theorem SlotsSettle.trans {s t u : State} (h : SlotsSettle s t) (h' : SlotsSettle t u) : SlotsSettle s u :=
  fun i hi => by
    have hu := h' i hi
    rw [← hu] at hi
    exact (h i hi).trans hu

/-- No fence becomes WAITING. -/
def FencesSettle (s t : State) : Prop :=
  ∀ k : FenceId, t.fences[k].state = .waiting → s.fences[k].state = .waiting

theorem FencesSettle.of_moves {s t : State} (h : ∀ k : FenceId, FenceMoves s.fences[k] t.fences[k]) :
    FencesSettle s t := fun k hk => by
  obtain ⟨-, -, ⟨hst, -⟩ | ⟨hw, -⟩⟩ := h k
  · exact hst.symm.trans hk
  · exact hw

theorem FencesSettle.of_eq {s t : State} (h : t.fences = s.fences := by simp) : FencesSettle s t :=
  fun k hk => by rwa [h] at hk

theorem FencesSettle.trans {s t u : State} (h : FencesSettle s t) (h' : FencesSettle t u) : FencesSettle s u :=
  fun k hk => h k (h' k hk)

/-- What an event other than an acceptance and a grant makes of what the laws of entries and of part states read. -/
structure EventStep (s t : State) : Prop where
  entries : EntriesStep s t
  slots : SlotsSettle s t
  fences : FencesSettle s t

theorem EventStep.of_entries {s t : State} (entries : EntriesStep s t) (slots : t.slots = s.slots := by simp)
    (fences : t.fences = s.fences := by simp) : EventStep s t := ⟨entries, .of_eq slots, .of_eq fences⟩

theorem EventStep.of_eq {s t : State} (entries : t.entries = s.entries := by simp)
    (slots : t.slots = s.slots := by simp) (fences : t.fences = s.fences := by simp) : EventStep s t :=
  .of_entries (.of_eq entries) slots fences

theorem EventStep.trans {s t u : State} (h : EventStep s t) (h' : EventStep t u) : EventStep s u :=
  ⟨h.entries.trans h'.entries, h.slots.trans h'.slots, h.fences.trans h'.fences⟩

theorem releaseTag_slotsSettle (s : State) (i : SlotId) : SlotsSettle s (releaseTag s i) := fun j hj => by
  rw [releaseTag_slots] at hj ⊢
  split at hj
  · next hji =>
    rw [if_pos hji, hji]
    dsimp only at hj ⊢
    split at hj
    · exact hj.elim nofun nofun
    · next hd => rw [if_neg hd]
  · next hji => rw [if_neg hji]

theorem releaseTag_fencesSettle (s : State) (i : SlotId) : FencesSettle s (releaseTag s i) :=
  .of_moves fun k => by
    rw [releaseTag_fences]
    split
    · exact dropSlot_moves i _
    · exact .refl _

theorem resolveSource_eventStep (s : State) (src : Source) (o : OpOutcome) : EventStep s (resolveSource s src o) := by
  refine ⟨resolveSource_entriesStep s src o, ?_, ?_⟩
  · cases src with
    | slot i =>
      show SlotsSettle s (resolveSlot s i o)
      unfold resolveSlot
      split
      · exact (SlotsSettle.of_eq (t := recordSlotLoss s i o)).trans (releaseTag_slotsSettle _ i)
      · intro j hj
        rw [resolveIssued, get_setSlot] at hj ⊢
        split at hj
        · exact hj.elim nofun nofun
        · next hji => rw [if_neg hji]
    | entry e =>
      intro j hj
      rw [resolveSource, resolveEntry_slots] at hj ⊢
      split at hj
      · exact hj.elim nofun nofun
      · next hw => rw [if_neg hw]
  · cases src with
    | slot i =>
      show FencesSettle s (resolveSlot s i o)
      unfold resolveSlot
      split
      · exact (FencesSettle.of_moves (recordSlotLoss_moves s i o).fences).trans (releaseTag_fencesSettle _ i)
      · exact .of_eq rfl
    | entry e =>
      have hanswered : FencesSettle s (answerWaiting s e (writeStatus o)) := .of_eq
      show FencesSettle s (freeEntry (drainAnswered s e o) e)
      refine FencesSettle.trans ?_ (.of_moves (freeEntry_moves _ e).fences)
      unfold drainAnswered
      split
      · exact hanswered.trans (.of_moves (recordEntryLoss_moves _ e _).fences)
      · exact hanswered

theorem judgeTimeout_eventStep (s : State) (τ : TagId) : EventStep s (judgeTimeout s τ) := by
  unfold judgeTimeout
  split
  · next op _ =>
    split
    · exact (resolveSource_eventStep s op.source .timeout).trans
        (.of_eq (by simp [timeOut]) (by simp [timeOut]) (by simp [timeOut]))
    · exact .of_eq
  · exact .of_eq
  · exact .of_eq

theorem judgeAllTimeouts_eventStep (s : State) : EventStep s (judgeAllTimeouts s) :=
  forEach_keeps (P := EventStep s) (fun t τ h => h.trans (judgeTimeout_eventStep t τ)) .of_eq

theorem timeJudged_eventStep (s : State) : EventStep s (timeJudged s) := by
  have hadvance : EventStep s (advanceTime s) := by
    refine ⟨.of_eq, fun i _ => ?_, .of_eq⟩
    rw [advanceTime_spec, get_tabulate, agedSlot_eq]
  have hjudge (t : State) : EventStep t (judgeAllUrgency (judgeRefill t)) := .of_eq
  exact ((hadvance.trans (hjudge _)).trans (.of_entries (judgeAllAged_entriesStep _))).trans
    (judgeAllTimeouts_eventStep _)

theorem commitJudged_eventStep (s : State) : EventStep s (commitJudged s) := by
  have hset : EventStep s (judgeAllUrgency (clampBalances (adoptStaged s))) := .of_eq
  exact ((hset.trans (.of_entries (judgeAllAged_entriesStep _))).trans (.of_entries (judgePressure_entriesStep _))).trans
    (judgeAllTimeouts_eventStep _)

theorem restarted_eventStep (s : State) : EventStep s (restarted s) := by
  refine ⟨restarted_entriesStep s, fun i hi => ?_, .of_moves (restarted_moves s).fences⟩
  rw [restarted_slots] at hi ⊢
  unfold restartSlot at hi ⊢
  split at hi <;> simp_all

/-- A slot that becomes FREE leaves the wait sets. -/
theorem freeSlot_fencesSettle (s : State) (i : SlotId) : FencesSettle s (freeSlot s i) := .of_moves fun k => by
  obtain ⟨-, -, hdropped⟩ := freeSlot_spec s i
  rw [hdropped]
  exact dropSlot_moves i _

theorem consumed_fencesSettle (s : State) (rest : List Ref) (ref : Ref) : FencesSettle s (consumed s rest ref) := by
  cases ref with
  | slot i => exact .of_eq (by simp [consumed])
  | fence k =>
    intro j hj
    rw [consumed_fence_fences] at hj
    split at hj
    · cases hj
    · exact hj
  | refusal k => exact .of_eq (by simp [consumed])

/-- What a delivery consumes leaves, and nothing comes to wait. -/
theorem departed_eventStep (s : State) (rest : List Ref) (ref : Ref) : EventStep s (departed s rest ref) := by
  have hconsumed := consumed_fencesSettle s rest ref
  cases ref with
  | slot i =>
    refine ⟨?_, fun j hj => ?_, ?_⟩
    · obtain ⟨sl, ar, fe, h⟩ := departed_slot_fields s rest i
      exact .of_eq (by rw [h])
    · rw [departed_slot_slots] at hj ⊢
      split at hj
      · next hji =>
        rw [if_pos hji, hji]
        dsimp only at hj ⊢
        split at hj
        · exact hj.elim nofun nofun
        · next hm => rw [if_neg hm]
      · next hji => rw [if_neg hji]
    · by_cases hm : s.slots[i].memTag = none
      · rw [departed_slot_free rest hm]
        exact hconsumed.trans (freeSlot_fencesSettle _ i)
      · rw [departed_slot_held rest hm]
        exact hconsumed
  | fence k =>
    have hdeparts (t : State) : FencesSettle t (departFence t k) := .of_moves (mapFences_moves (dropFence_moves k)).fences
    exact ⟨.of_eq (by simp [departed, consumed]), .of_eq (by simp [departed, consumed]), hconsumed.trans (hdeparts _)⟩
  | refusal k => exact ⟨.of_eq (by simp [departed, consumed]), .of_eq (by simp [departed, consumed]), hconsumed⟩

theorem conclude_eventStep (s t : State) : EventStep t (conclude s t) := .of_eq

theorem answerMgmt_eventStep (s : State) (st : MgmtStatus) (v : Word) : EventStep s (answerMgmt s st v) := .of_eq

/-! ### Every command but a presentation and a grant -/

theorem deliver_eventStep (s : State) : EventStep s (deliver s) := by
  cases h : s.responses with
  | nil => simp only [deliver, h]; exact .of_eq
  | cons ref rest =>
    rw [deliver_eq h]
    exact (departed_eventStep s rest ref).trans (conclude_eventStep s _)

theorem nextDrainGrant_eventStep (s : State) : EventStep s (nextDrainGrant s) := by
  unfold nextDrainGrant
  split
  · next e he => exact .of_entries (grantDrain_entriesStep (choose_drain he))
  · exact .of_eq
  · exact .of_eq

theorem setTag_eventStep (s : State) (τ : TagId) (x : TagRecord) : EventStep s (setTag s τ x) := .of_eq

theorem complete_eventStep (s : State) (tag : Nat) (o : OpOutcome) : EventStep s (complete s tag o) := by
  unfold complete
  split
  · unfold completeTag
    split
    · next op _ =>
      exact ((resolveSource_eventStep s op.source o).trans (setTag_eventStep _ _ _)).trans (conclude_eventStep s _)
    · exact .of_eq
    · exact .of_eq
  · exact .of_eq

theorem commitPart_eventStep (s : State) : EventStep s (commitPart s) := by
  have hvalidate : EventStep s (validateAndCommit s) := by
    unfold validateAndCommit
    split
    · exact answerMgmt_eventStep s _ _
    · exact ((commitJudged_eventStep s).trans (conclude_eventStep s _)).trans (answerMgmt_eventStep _ _ _)
  unfold commitPart
  split
  case h_1 => exact answerMgmt_eventStep s _ _
  all_goals exact hvalidate

theorem drainPart_eventStep (s : State) : EventStep s (drainPart s) := by
  have hpart : EventStep s (setPart s .draining) := .of_eq
  have hend (t : State) : EventStep t (judgeEmpty t) := .of_eq
  unfold drainPart
  split
  · exact ((hpart.trans (.of_entries (demandAll_entriesStep _))).trans (hend _)).trans (answerMgmt_eventStep _ _ _)
  all_goals exact answerMgmt_eventStep s _ _

theorem restartPart_eventStep (s : State) : EventStep s (restartPart s) := by
  by_cases hs : s.part = .restarting
  · rw [restartPart_busy hs]
    exact answerMgmt_eventStep s _ _
  · rw [restartPart_eq hs]
    exact ((restarted_eventStep s).trans (conclude_eventStep s _)).trans (answerMgmt_eventStep _ _ _)

theorem afterReset_eventStep (s : State) : EventStep s (afterReset s) := by
  have hentry (e : EntryId) : (afterReset s).entries[e] = MergeEntry.free := by simp [afterReset, State.reset]
  refine ⟨.of_entry (fun e => .of_free (by rw [hentry]; rfl)) fun e hp => ?_, fun i hi => ?_, fun k hk => ?_⟩
  · rw [hentry] at hp
    exact absurd hp free_holdsNoPressure
  · rw [afterReset_slots] at hi
    exact hi.elim nofun nofun
  · rw [afterReset_fences] at hk
    cases hk

theorem effect_eventStep (c : Instr) (s : State) (hp : ∀ r, c ≠ .presentation r) (hg : c ≠ .grant) :
    EventStep s (effect c s) := by
  cases c with
  | presentation r => exact absurd rfl (hp r)
  | grant => exact absurd rfl hg
  | delivery => exact deliver_eventStep s
  | drainGrant => exact nextDrainGrant_eventStep s
  | completion tag st line => exact complete_eventStep s tag _
  | timeBaseStep => exact (timeJudged_eventStep s).trans (conclude_eventStep s _)
  | aged e => exact .of_entries (judgeAged_entriesStep s e) (by simp [effect]) (by simp [effect])
  | responseTimeout τ => exact (judgeTimeout_eventStep s τ).trans (conclude_eventStep s _)
  | hardReset => exact afterReset_eventStep s
  | commit => exact commitPart_eventStep s
  | drain => exact drainPart_eventStep s
  | restart => exact restartPart_eventStep s
  | hold _ | refillExpiry | urgentEpisode _ | resetDeassert | shortFrame | unknownCommand _ | readItem _ | writeItem _ _
  | discardStaged | resume | takeFault | ackAlert _ | clearCounters | status _ =>
    exact .of_eq (by simp [effect]) (by simp [effect]) (by simp [effect])

/-! ## A presentation -/

/-- A presentation leaves the slots, or accepts a READ or WRITE of a well formed record. -/
theorem intake_accepts (s : State) (r : Request) : (intake s r).slots = s.slots ∨
    ∃ a w i, shapeOk r = true ∧ accessOf r = some a ∧ intake s r = acceptAccess s a w i := by
  unfold intake
  split
  · exact .inl (by simp)
  · split
    · exact .inl (by simp)
    · next hnone =>
      obtain ⟨hshape, -⟩ := checkFailure_eq_none hnone
      unfold takePassing
      split
      · next a ha =>
        split
        · next w _ =>
          rcases takeAccess_cases s a w with h | ⟨i, -, h⟩
          · exact .inl (by rw [h]; simp)
          · exact .inr ⟨a, w, i, hshape, ha, h⟩
        · exact .inl rfl
      · exact .inl (by simp)

/-- A WRITE whose record is well formed has a written lane (R1, R5). -/
theorem accessOf_lane {r : Request} {a : AccessReq} (shape : shapeOk r = true) (h : accessOf r = some a)
    (kind : a.kind = .write) : lanesAny a.lanes = true := by
  cases r with
  | read i g address length u => cases h; cases kind
  | write i g address length u strobes data =>
    cases h
    obtain ⟨-, hwithin, n, hn, hset⟩ := wellShaped_iff.2 shape
    exact lanesAny_iff.2 ⟨⟨address.toNat % 64 + n, by omega⟩, (writtenLanes_iff _ _ _ _).2 ⟨n, hn, rfl, hset⟩⟩
  | fence i g => cases h
  | other i g k => cases h

theorem intake_writesHoldLane {s : State} (h : WritesHoldLane s.slots) (r : Request) :
    WritesHoldLane (intake s r).slots := by
  rcases intake_accepts s r with he | ⟨a, w, i, hshape, ha, he⟩
  · rwa [he]
  · rw [he, (acceptAccess_untouched s a w i).slots]
    intro j hq hk
    rw [accepted_slots] at hq hk ⊢
    by_cases hj : j = i
    · rw [if_pos hj] at hk ⊢
      exact accessOf_lane hshape ha hk
    · rw [if_neg hj] at hq hk ⊢
      exact h j hq hk

theorem intake_entriesStep (s : State) (r : Request) : EntriesStep s (intake s r) := by
  rcases intake_cases s r with he | ⟨k, he⟩ | ⟨st, k, -, he⟩ | ⟨a, w, i, -, -, he⟩ | ⟨i, g, k, -, -, he⟩ <;> rw [he]
  · exact .of_eq
  · exact .of_eq
  · exact .of_eq (by simp [refusedInto])
  · obtain ⟨hentries, -⟩ := accepted_frame s a w i
    have hend (t : State) : EntriesStep t (setAnswer (countAccepted t (requestClass s a w)) (some .accept)) := .of_eq
    exact ((EntriesStep.of_eq hentries).trans (judgeStrict_entriesStep _ a.line)).trans (hend _)
  · have hregistered : EntriesStep s (setFenceOrder (setFence (markTag s i g) k (settleFence (capturedFence s i g)))
        (s.fenceOrder ++ [k])) := .of_eq
    have hanswer (t : State) : EntriesStep t (setAnswer (publish s t) (some .accept)) := .of_eq
    rw [acceptFence_eq]
    exact (hregistered.trans (demandFence_entriesStep _ (capturedFence s i g).waitEntries)).trans (hanswer _)

/-! ## The law of entries is kept (R75, R76, R84, R91, R94) -/

theorem EventStep.writesHoldLane {s t : State} (h : EventStep s t) (captures : CapturesStay s t)
    (lanes : WritesHoldLane s.slots) : WritesHoldLane t.slots := fun i hq hk => by
  obtain ⟨-, -, hkind, -, -, -, hlanes, -⟩ := captures i
  rw [hlanes]
  exact lanes i ((h.slots i (.inl hq)).trans hq) (hkind.symm.trans hk)

theorem afterReset_writesHoldLane (s : State) : WritesHoldLane (afterReset s).slots := fun i hq => by
  rw [afterReset_slots] at hq
  cases hq

theorem nextSlotGrant_entryLaw {s : State} (h : EntryLaw s) : EntryLaw (nextSlotGrant s) := by
  obtain ⟨hsound, hpressure, hlane⟩ := entryLaw_iff.1 h
  unfold nextSlotGrant
  split
  · next i a cls rr hc =>
    obtain ⟨hsound', hpressure'⟩ := grantSlot_entryLaw hsound hpressure hlane (choose_slot hc) cls rr
    refine entryLaw_iff.2 ⟨hsound', hpressure', fun j hq hk => ?_⟩
    obtain ⟨hj, hjq, -⟩ := grantSlot_queued (j := j) hq
    have hslot : (publish s (grantSlot s i a cls rr)).slots[j] =
        { s.slots[j] with effCls := (ungrouped s i).slots[j].effCls } := by
      rw [← ungrouped_slots]
      exact grantSlot_slots_ne s a cls rr hj
    rw [hslot] at hk ⊢
    exact hlane j hjq hk
  · exact h
  · exact h

theorem effect_entryLaw (c : Instr) {s : State} (h : EntryLaw s) : EntryLaw (effect c s) := by
  obtain ⟨hsound, hpressure, hlane⟩ := entryLaw_iff.1 h
  by_cases hg : c = .grant
  · subst hg
    exact nextSlotGrant_entryLaw h
  suffices hstep : EntriesStep s (effect c s) ∧ WritesHoldLane (effect c s).slots by
    obtain ⟨hentries, hlanes⟩ := hstep
    exact entryLaw_iff.2 ⟨fun e => (hentries.entry e).sound (hsound e), hentries.pressure hpressure, hlanes⟩
  by_cases hp : ∃ r, c = .presentation r
  · obtain ⟨r, rfl⟩ := hp
    exact ⟨intake_entriesStep s r, intake_writesHoldLane hlane r⟩
  · have hp' (r) : c ≠ .presentation r := fun hr => hp ⟨r, hr⟩
    have hstep := effect_eventStep c s hp' hg
    refine ⟨hstep.entries, ?_⟩
    by_cases hr : c = .hardReset
    · subst hr
      exact afterReset_writesHoldLane s
    · exact hstep.writesHoldLane (effect_capturesStay c s hp' hr) hlane

/-- Settles O52: reasons, merges and drains keep an entry sound, an allocation opens a sound one, and PRESSURE is taken
where no entry holds it. -/
theorem stepKeepsEntryLaw : Obligations.StepKeepsEntryLaw := fun _ _ =>
  step_keeps (fun _ _ h => h) fun c _ => effect_entryLaw c

/-! ## The law of part states in parts (R95, R163, R164, R168, R170) -/

/-- Every entry that takes reasons holds DRAIN_CMD (R95, R163). -/
def AllDemanded (s : State) : Prop :=
  ∀ e : EntryId, entryLive s.entries[e] = true → Reason.drainCmd ∈ s.entries[e].reasons

/-- No candidate is held, and no WAITING fence (R168). -/
def NothingWaits (s : State) : Prop :=
  (∀ i : SlotId, s.slots[i].state ≠ .queued ∧ s.slots[i].state ≠ .waitDrain) ∧
  (∀ e : EntryId, entryLive s.entries[e] = false) ∧ ∀ k : FenceId, s.fences[k].state ≠ .waiting

/-- What the law asks of what is held in DRAINING and in RESTARTING. -/
def PartHolds (s : State) : Prop :=
  (s.part = .draining → AllDemanded s) ∧ (s.part = .restarting → NothingWaits s)

theorem partLaw_iff {s : State} : PartLaw s ↔
    PartHolds s ∧ (s.part = .draining ∨ s.part = .restarting → ¬ NothingHeld s) := by
  have hheld : emptyConditions s = false ↔ ¬ NothingHeld s := by rw [nothingHeld_iff, Bool.not_eq_true]
  unfold PartLaw PartHolds
  rw [hheld]
  constructor
  · rintro ⟨hd, hr⟩
    exact ⟨⟨fun h => (hd h).2, fun h => (hr h).2⟩, fun h => h.elim (fun h => (hd h).1) fun h => (hr h).1⟩
  · rintro ⟨⟨hd, hr⟩, hh⟩
    exact ⟨fun h => ⟨hh (.inl h), hd h⟩, fun h => ⟨hh (.inr h), hr h⟩⟩

/-- In RUNNING and QUIESCENT the law asks nothing. -/
theorem partLaw_of_part {s : State} (h : s.part = .running ∨ s.part = .quiescent) : PartLaw s := by
  have hnot : s.part ≠ .draining ∧ s.part ≠ .restarting := by rcases h with h | h <;> rw [h] <;> exact ⟨nofun, nofun⟩
  exact ⟨fun hd => absurd hd hnot.1, fun hr => absurd hr hnot.2⟩

theorem AllDemanded.step {s t : State} (h : AllDemanded s) (k : EntriesStep s t) : AllDemanded t := fun e he => by
  obtain ⟨hlive, -, hkeeps⟩ := (k.entry e).live he
  exact hkeeps _ (h e hlive)

theorem NothingWaits.step {s t : State} (h : NothingWaits s) (k : EventStep s t) : NothingWaits t := by
  obtain ⟨hslots, hentries, hfences⟩ := h
  refine ⟨fun i => ⟨fun hq => ?_, fun hw => ?_⟩, fun e => ?_, fun f hf => hfences f (k.fences f hf)⟩
  · exact (hslots i).1 ((k.slots i (.inl hq)).trans hq)
  · exact (hslots i).2 ((k.slots i (.inr hw)).trans hw)
  · refine eq_false_of_ne_true fun he => ?_
    obtain ⟨hlive, -⟩ := (k.entries.entry e).live he
    rw [hentries] at hlive
    cases hlive

theorem PartHolds.step {s t : State} (h : PartHolds s) (part : t.part = s.part) (k : EventStep s t) : PartHolds t := by
  obtain ⟨hdraining, hrestarting⟩ := h
  unfold PartHolds
  rw [part]
  exact ⟨fun hp => (hdraining hp).step k.entries, fun hp => (hrestarting hp).step k⟩

/-- An event that leaves the part state leaves the law, where it does not leave the part with nothing held. -/
theorem PartLaw.step {s t : State} (h : PartLaw s) (part : t.part = s.part) (k : EventStep s t)
    (held : NothingHeld t → NothingHeld s) : PartLaw t := by
  obtain ⟨hholds, hheld⟩ := partLaw_iff.1 h
  exact partLaw_iff.2 ⟨hholds.step part k, fun hp hn => hheld (part ▸ hp) (held hn)⟩

/-- The judgement of the empty conditions leaves no DRAINING or RESTARTING part with nothing held. -/
theorem judgeEmpty_partLaw {s : State} (h : PartHolds s) : PartLaw (judgeEmpty s) := by
  by_cases hn : NothingHeld s
  · refine partLaw_of_part ?_
    have hempty := nothingHeld_iff.1 hn
    cases hp : s.part with
    | running => simp only [judgeEmpty, hp, true_or]
    | draining =>
      rw [judgeEmpty_draining hp, if_pos hempty]
      exact .inr rfl
    | quiescent => simp only [judgeEmpty, hp, or_true]
    | restarting =>
      rw [judgeEmpty_restarting hp, if_pos hempty]
      exact .inl rfl
  · rw [judgeEmpty_held hn]
    exact partLaw_iff.2 ⟨h, fun _ => hn⟩

theorem conclude_partLaw {s t : State} (h : PartHolds t) : PartLaw (conclude s t) :=
  have hpublished : PartHolds (publish s t) := h
  judgeEmpty_partLaw hpublished

theorem answerMgmt_partLaw {s : State} (h : PartLaw s) (st : MgmtStatus) (v : Word) : PartLaw (answerMgmt s st v) := h

/-! ## Grants and what is held -/

/-- A grant of a DRAINING part demands the entry that it allocates (R77, R95). -/
theorem acted_allDemanded {s : State} (hp : s.part = .draining) (h : AllDemanded s) (i : SlotId) (a : Action) :
    AllDemanded (acted s i a) := by
  by_cases ha : ∃ e, a = .allocate e
  · obtain ⟨e, rfl⟩ := ha
    intro d hd
    obtain ⟨hstate, -⟩ := mergedEntry_frame (allocatedEntry s.slots[i] s.timeBase) s.slots[i]
    rw [acted_allocate_entry] at hd ⊢
    split at hd
    · next hde =>
      rw [if_pos hde, mem_withReasons (entryLive_iff.2 (.inl hstate)), hp]
      exact .inr (by simp [actionReasons, mem_reasonIf])
    · next hde =>
      rw [if_neg hde]
      exact h d hd
  · exact h.step (acted_entriesStep s i fun e he => ha ⟨e, he⟩)

/-- The granted slot is held after its grant. -/
theorem grantSlot_held (s : State) (i : SlotId) (a : Action) (cls : ClassId) (rr : Bool) :
    ¬ NothingHeld (publish s (grantSlot s i a cls rr)) := fun ⟨hslots, _⟩ => by
  have hfree : (grantSlot s i a cls rr).slots[i].state = .free := hslots i
  obtain ⟨-, -, -, -, -, -, -, hst⟩ := (acts_ungrouped s i a).self
  rw [grantSlot_slots] at hfree
  rw [hfree] at hst
  exact hst.elim nofun fun h => h.elim nofun fun h => nomatch h.1

theorem nextSlotGrant_partLaw {s : State} (h : PartLaw s) : PartLaw (nextSlotGrant s) := by
  obtain ⟨⟨hdemanded, hwaits⟩, -⟩ := partLaw_iff.1 h
  rcases nextSlotGrant_cases s with he | ⟨i, a, cls, rr, hq, he⟩
  · rwa [he]
  · rw [he]
    have hpart : (publish s (grantSlot s i a cls rr)).part = s.part := by simp
    have hstep := grantSlot_entriesStep s i a cls rr
    refine partLaw_iff.2 ⟨⟨fun hp => ?_, fun hp => ?_⟩, fun _ => grantSlot_held s i a cls rr⟩
    · rw [hpart] at hp
      have hgranted : AllDemanded (grantSlot s i a cls rr) :=
        (acted_allDemanded hp (hdemanded hp) i a).step hstep
      exact hgranted
    · rw [hpart] at hp
      obtain ⟨hslots, -⟩ := hwaits hp
      exact absurd hq (hslots i).1

theorem nextDrainGrant_partLaw {s : State} (h : PartLaw s) : PartLaw (nextDrainGrant s) := by
  unfold nextDrainGrant
  split
  · next e he =>
    refine h.step (by simp) (.of_entries (grantDrain_entriesStep (choose_drain he))) fun ⟨_, _, hentries, _⟩ => ?_
    have hfree := hentries e
    rw [grantDrain_entries, if_pos rfl] at hfree
    cases hfree
  · exact h
  · exact h

/-! ## Every other command -/

/-- What keeps slots, fences, ops and references, and which entries are FREE, holds as much as before. -/
theorem NothingHeld.of_after {s t : State} (h : NothingHeld t) (entries : EntriesStay s t)
    (slots : t.slots = s.slots := by simp) (fences : t.fences = s.fences := by simp)
    (tags : t.tags = s.tags := by simp) (responses : t.responses = s.responses := by simp) : NothingHeld s := by
  obtain ⟨hslots, hfences, hentries, htags, hresponses⟩ := h
  rw [slots] at hslots
  rw [fences] at hfences
  rw [tags] at htags
  rw [responses] at hresponses
  exact ⟨hslots, hfences, fun e => (entries e).1.1 (hentries e), htags, hresponses⟩

theorem intake_partLaw {s : State} (h : PartLaw s) (r : Request) : PartLaw (intake s r) := by
  by_cases hp : s.part = .running
  · exact partLaw_of_part (.inl (by simpa using hp))
  · have hdefer : intake s r = deferUnclassed s := if_pos (bne_iff_ne.2 hp)
    rw [hdefer]
    exact h.step (by simp) .of_eq fun hn => hn.of_after .of_eq

theorem deliver_partLaw {s : State} (h : PartLaw s) : PartLaw (deliver s) := by
  obtain ⟨hholds, -⟩ := partLaw_iff.1 h
  cases hs : s.responses with
  | nil => simpa only [deliver, hs] using h
  | cons ref rest =>
    obtain ⟨-, -, hpart⟩ := departed_frame s rest ref
    rw [deliver_eq hs]
    exact conclude_partLaw (hholds.step hpart (departed_eventStep s rest ref))

/-- A late completion frees a tag under which no op is OUTSTANDING (R138). -/
theorem lateCompletion_nothingHeld {s : State} {τ : TagId} (hτ : s.tags[τ] = .quarantined)
    (h : NothingHeld (lateCompletion s τ)) : NothingHeld s := by
  obtain ⟨hslots, hfences, hentries, htags, hresponses⟩ := h
  refine ⟨by simpa using hslots, by simpa using hfences, by simpa using hentries, fun σ op hop => ?_,
    by simpa using hresponses⟩
  have hput : (lateCompletion s τ).tags[σ] = if σ = τ then .free else s.tags[σ] := by
    rw [← get_put]
    simp [lateCompletion, setTag]
  refine htags σ op ?_
  rw [hput, if_neg]
  · exact hop
  · rintro rfl
    cases hτ.symm.trans hop

theorem complete_partLaw {s : State} (h : PartLaw s) (tag : Nat) (o : OpOutcome) : PartLaw (complete s tag o) := by
  obtain ⟨hholds, -⟩ := partLaw_iff.1 h
  have hstray : PartLaw (strayCompletion s) := h.step (by simp) .of_eq fun hn => hn.of_after .of_eq
  unfold complete
  split
  · unfold completeTag
    split
    · next op _ =>
      exact conclude_partLaw (hholds.step (by simp)
        ((resolveSource_eventStep s op.source o).trans (setTag_eventStep _ _ _)))
    · next hτ => exact h.step (by simp) .of_eq (lateCompletion_nothingHeld hτ)
    · exact hstray
  · exact hstray

theorem commitPart_partLaw {s : State} (h : PartLaw s) : PartLaw (commitPart s) := by
  obtain ⟨hholds, -⟩ := partLaw_iff.1 h
  have hvalidate : PartLaw (validateAndCommit s) := by
    unfold validateAndCommit
    split
    · exact answerMgmt_partLaw h _ _
    · exact answerMgmt_partLaw
        (conclude_partLaw (hholds.step (by simp [commitJudged]) (commitJudged_eventStep s))) _ _
  unfold commitPart
  split
  case h_1 => exact answerMgmt_partLaw h _ _
  all_goals exact hvalidate

/-- Where each pass gives its own entry what it held with `g` applied, the passes over all entries apply `g` to each. -/
theorem forEach_setEntry {s : State} (g : MergeEntry → MergeEntry) {f : State → EntryId → State}
    (pass : ∀ x e, f (setEntries s x) e = setEntry (setEntries s x) e (g x[e])) :
    forEach s f = setEntries s (tabulate fun e => g s.entries[e]) := by
  have hfold (es : List EntryId) : es.Nodup → ∀ x, es.foldl f (setEntries s x) =
      setEntries s (tabulate fun d => if d ∈ es then g x[d] else x[d]) := by
    induction es with
    | nil =>
      exact fun _ x => congrArg (setEntries s) (vector_ext fun d => by rw [get_tabulate, if_neg List.not_mem_nil])
    | cons e es ih =>
      intro hnodup x
      obtain ⟨hnot, hes⟩ := List.nodup_cons.1 hnodup
      have hput : setEntry (setEntries s x) e (g x[e]) = setEntries s (put x e (g x[e])) := rfl
      rw [List.foldl_cons, pass, hput, ih hes]
      refine congrArg (setEntries s) (vector_ext fun d => ?_)
      rw [get_tabulate, get_tabulate, get_put]
      by_cases hd : d = e
      · subst hd
        rw [if_neg hnot, if_pos rfl, if_pos List.mem_cons_self]
      · simp only [List.mem_cons, hd, false_or, if_false]
  have hself : forEach s f = forEach (setEntries s s.entries) f := rfl
  rw [hself]
  unfold forEach
  rw [hfold _ (List.nodup_finRange 16)]
  exact congrArg (setEntries s) (vector_ext fun d => by
    rw [get_tabulate, get_tabulate, if_pos (List.mem_finRange d)])

/-- DRAIN demands every entry (R95, R163). -/
theorem demandAll_eq (s : State) : demandAll s =
    setEntries s (tabulate fun e => withReason s.entries[e] .drainCmd s.timeBase) :=
  forEach_setEntry (fun m => withReason m .drainCmd s.timeBase) fun _ _ => rfl

theorem demandAll_allDemanded (s : State) : AllDemanded (demandAll s) := by
  intro e he
  have hentry : (demandAll s).entries[e] = withReason s.entries[e] .drainCmd s.timeBase := by
    rw [demandAll_eq]
    exact get_tabulate _ e
  rw [hentry] at he ⊢
  cases hlive : entryLive s.entries[e] with
  | true => exact (mem_withReason hlive _ _ _).2 (.inl rfl)
  | false =>
    rw [withReason_other hlive, hlive] at he
    cases he

theorem drainPart_partLaw {s : State} (h : PartLaw s) : PartLaw (drainPart s) := by
  unfold drainPart
  split
  · refine answerMgmt_partLaw (judgeEmpty_partLaw ⟨fun _ => demandAll_allDemanded _, fun hp => ?_⟩) _ _
    simp at hp
  all_goals exact answerMgmt_partLaw h _ _

theorem resumePart_partLaw {s : State} (h : PartLaw s) : PartLaw (resumePart s) := by
  have hrunning : PartLaw (setPart s .running) := partLaw_of_part (.inl rfl)
  unfold resumePart
  split
  · exact answerMgmt_partLaw h _ _
  · exact answerMgmt_partLaw hrunning _ _
  · exact answerMgmt_partLaw hrunning _ _
  · exact answerMgmt_partLaw h _ _

/-- RESTART leaves nothing that waits (R43, R101, R153). -/
theorem restarted_nothingWaits (s : State) : NothingWaits (restarted s) := by
  refine ⟨fun i => ?_, fun e => ?_, fun k => ?_⟩
  · rw [restarted_slots]
    unfold restartSlot
    split <;> simp_all
  · rw [restarted_entries]
    split
    · rfl
    · next he => exact eq_false_of_ne_true he
  · rw [restarted_fences]
    unfold restartFence
    split <;> simp_all

theorem restartPart_partLaw {s : State} (h : PartLaw s) : PartLaw (restartPart s) := by
  by_cases hs : s.part = .restarting
  · rw [restartPart_busy hs]
    exact answerMgmt_partLaw h _ _
  · have hpart : (restarted s).part = .restarting := by simp [restarted]
    rw [restartPart_eq hs]
    refine answerMgmt_partLaw (conclude_partLaw ⟨fun hp => ?_, fun _ => restarted_nothingWaits s⟩) _ _
    rw [hpart] at hp
    cases hp

theorem timeStep_partLaw {s : State} (h : PartLaw s) : PartLaw (timeStep s) := by
  obtain ⟨hholds, -⟩ := partLaw_iff.1 h
  have hjudged : PartHolds (timeJudged s) := hholds.step (by simp [timeJudged]) (timeJudged_eventStep s)
  have hstep : timeStep s = conclude s (timeJudged s) := by simp only [timeStep, timeJudged]
  rw [hstep]
  exact conclude_partLaw hjudged

theorem effect_partLaw (c : Instr) {s : State} (h : PartLaw s) : PartLaw (effect c s) := by
  obtain ⟨hholds, -⟩ := partLaw_iff.1 h
  cases c with
  | presentation r => exact intake_partLaw h r
  | delivery => exact deliver_partLaw h
  | grant => exact nextSlotGrant_partLaw h
  | drainGrant => exact nextDrainGrant_partLaw h
  | completion tag st line => exact complete_partLaw h tag _
  | timeBaseStep => exact timeStep_partLaw h
  | aged e =>
    exact h.step (by simp [effect]) (.of_entries (judgeAged_entriesStep s e) (by simp [effect]) (by simp [effect]))
      fun hn => hn.of_after (judgeAged_mergeKept s e).entries (by simp [effect]) (by simp [effect]) (by simp [effect])
        (by simp [effect])
  | responseTimeout τ => exact conclude_partLaw (hholds.step (by simp) (judgeTimeout_eventStep s τ))
  | hardReset => exact partLaw_of_part (.inl rfl)
  | commit => exact commitPart_partLaw h
  | drain => exact drainPart_partLaw h
  | resume => exact resumePart_partLaw h
  | restart => exact restartPart_partLaw h
  | hold _ | refillExpiry | urgentEpisode _ | resetDeassert | shortFrame | unknownCommand _ | readItem _ | writeItem _ _
  | discardStaged | takeFault | ackAlert _ | clearCounters | status _ =>
    exact h.step (by simp [effect]) (.of_eq (by simp [effect]) (by simp [effect]) (by simp [effect])) fun hn =>
      hn.of_after (.of_eq (by simp [effect])) (by simp [effect]) (by simp [effect]) (by simp [effect]) (by simp [effect])

/-- Settles O55: an event that can leave nothing held ends with the empty conditions, DRAIN and an allocation demand, and
RESTART leaves nothing that waits. -/
theorem stepKeepsPartLaw : Obligations.StepKeepsPartLaw := fun _ _ =>
  step_keeps (fun _ _ h => h) fun c _ => effect_partLaw c

/-! ## The data of a MASKED_WRITE (R127) -/

/-- The data of a MASKED_WRITE, lane by lane, as the statements name it. -/
theorem keepLanes_eq (m : LaneMask) (x : LineData) :
    keepLanes m x = tabulate (fun l : Lane => if m[l] then x[l] else 0) :=
  vector_ext fun l => by rw [get_tabulate, Fin.getElem_fin, get_keepLanes]; rfl

/-! ## A direct write is issued (R81, R127, R130) -/

/-- The slot of a direct write after its action: a CONFIRM-mode one waits for its op, any other is DONE (R81). -/
def directSlot (x : Slot) (τ : TagId) : Slot :=
  { x with
    state := if x.mode = .confirm then .issued else .done
    status := if x.mode = .confirm then x.status else some .ok, memTag := some τ, effCls := none }

theorem doDirect_spec {s : State} {τ : TagId} (h : firstFreeTag s = some τ) (i : SlotId)
    (hclass : s.slots[i].effCls = none) :
    doDirect s i = { s with
      tags := put s.tags τ (.outstanding
        { kind := .maskedWrite s.slots[i].lanes, line := s.slots[i].line, source := .slot i, issueTime := s.timeBase })
      issued := some
        { tag := τ, kind := .maskedWrite s.slots[i].lanes, line := s.slots[i].line, lanes := s.slots[i].lanes
          data := some (keepLanes s.slots[i].lanes s.slots[i].data) }
      slots := put s.slots i (directSlot s.slots[i] τ) } := by
  have hissue := issueForSlot_spec h i (.maskedWrite s.slots[i].lanes)
  have hdirect (x : Slot) : setSlot (issueForSlot s i (.maskedWrite s.slots[i].lanes)) i x =
      { issueForSlot s i (.maskedWrite s.slots[i].lanes) with slots := put s.slots i x } := by
    rw [hissue]
    simp only [setSlot, put_put]
    rfl
  have hself : (issueForSlot s i (.maskedWrite s.slots[i].lanes)).slots[i] = { s.slots[i] with memTag := some τ } := by
    rw [hissue, get_put_self]
  unfold doDirect directSlot
  split
  case h_1 hmode | h_2 hmode | h_3 hmode =>
    simp only [finishOk, hdirect, hself, ← hclass, hmode, reduceCtorEq, if_true, if_false]
    rw [hissue]
    rfl

theorem acted_direct {s : State} {τ : TagId} (h : firstFreeTag s = some τ) (i : SlotId) :
    (acted s i .direct).tags = put s.tags τ (.outstanding
      { kind := .maskedWrite s.slots[i].lanes, line := s.slots[i].line, source := .slot i, issueTime := s.timeBase }) ∧
    (acted s i .direct).issued = some
      { tag := τ, kind := .maskedWrite s.slots[i].lanes, line := s.slots[i].line, lanes := s.slots[i].lanes
        data := some (keepLanes s.slots[i].lanes s.slots[i].data) } ∧
    (acted s i .direct).slots[i] = directSlot s.slots[i] τ ∧ (acted s i .direct).entries = s.entries := by
  obtain ⟨-, -, -, -, -, -, htags, hentries⟩ := ungrouped_frame s i
  have hfree : firstFreeTag (ungrouped s i) = some τ := by
    rw [← h, firstFreeTag, htags]
    rfl
  have hclass : (ungrouped s i).slots[i].effCls = none := by rw [ungrouped_self]
  rw [show acted s i .direct = doDirect (ungrouped s i) i from rfl, doDirect_spec hfree i hclass]
  refine ⟨?_, ?_, ?_, hentries⟩
  · simp only [htags, ungrouped_self, ungrouped_timeBase]
  · simp only [ungrouped_self]
  · simp only [get_put_self, ungrouped_self]
    rfl

/-- Settles O33: the slot takes the lowest FREE tag with its own lanes; its line has no entry, so no entry changes. -/
theorem directWriteIsIssued : Obligations.DirectWriteIsIssued := by
  intro s i e rr hr hchoose x
  obtain ⟨-, -, ⟨-, hmode, href⟩, hready⟩ := grantableAction_iff.1 (choose_slot hchoose)
  obtain ⟨τ, hτ⟩ := Option.isSome_iff_exists.1 (Bool.and_eq_true_iff.1 (canIssue_iff.2 (hready rfl))).1
  obtain ⟨hfree, hlow⟩ := firstFreeTag_spec hτ
  obtain ⟨htags, hissued, hself, hentries⟩ := acted_direct hτ i
  obtain ⟨htags', hissued'⟩ := grantSlot_ops s i .direct e rr
  obtain ⟨-, hresponses⟩ := grantSlot_lists s i .direct e rr
  let t := grantSlot s i .direct e rr
  have hslot : t.slots[i] = directSlot x τ := by rw [← hself, ← grantSlot_slots s i .direct e rr]
  have hstrict : EntriesButStrictRead s (publish s t) x.line := grantSlot_entriesButStrictRead rfl hentries e rr
  have hpost : t.slots[i].state = .done ↔ x.mode = .post := by
    rw [hslot]
    cases hx : x.mode with
    | merge => exact absurd hx hmode
    | post => simp [directSlot, hx]
    | confirm => simp [directSlot, hx]
  refine ⟨publish s t, τ, readyRefs s t, exec_grant_slot hr hchoose, hfree, hlow, htags'.trans htags, ?_, fun hx => ?_,
    fun hx => ?_, ?_, fun ref => ?_, vector_ext fun d => ?_, grantSlot_fences_other rfl s i e rr⟩
  · rw [← keepLanes_eq]
    exact hissued'.trans hissued
  · refine hslot.trans ?_
    simp [directSlot, hx]
  · refine hslot.trans ?_
    simp [directSlot, hx]
  · rw [publish_responses]
    exact congrArg (· ++ _) hresponses
  · rw [mem_readyRefs_grantSlot hchoose, and_comm]
    exact and_congr_left' hpost
  · rw [hstrict d, if_neg]
    rw [href]
    exact fun h => nomatch h.1

/-! ## A drain is granted (R96, R127, R130) -/

/-- A drain is chosen with a FREE tag and HOLD deasserted (R112, R117). -/
theorem choose_drain_canIssue {s : State} {e : EntryId} (h : choose s = some (.drain e)) : canIssue s = true := by
  by_contra hcannot
  have hoffer {classes : List ClassId} {p : ClassId → Bool} {rr : Bool} :
      firstOffer s classes p rr ≠ some (.drain e) := by
    intro hd
    obtain ⟨k, -, hk⟩ := List.exists_of_findSome?_eq_some hd
    obtain ⟨_, -, heq⟩ := Option.map_eq_some_iff.1 hk
    cases heq
  have hdemanded : demandedDrain s = none := if_neg hcannot
  have hbackground : backgroundDrain s = none := if_neg hcannot
  simp only [choose, hdemanded, hbackground, Option.none_or, Option.or_eq_some_iff] at h
  rcases h with h | ⟨-, h | ⟨-, h⟩⟩
  · exact hoffer h
  · exact hoffer h
  · exact hoffer h

/-- A drain granted: its op under the tag, the entry DRAINING, and the count; nothing else. -/
theorem grantDrain_spec {s : State} {τ : TagId} (h : firstFreeTag s = some τ) (e : EntryId) :
    grantDrain s e = { s with
      tags := put s.tags τ (.outstanding
        { kind := .maskedWrite s.entries[e].valid, line := s.entries[e].line, source := .entry e
          issueTime := s.timeBase })
      issued := some
        { tag := τ, kind := .maskedWrite s.entries[e].valid, line := s.entries[e].line, lanes := s.entries[e].valid
          data := some (keepLanes s.entries[e].valid s.entries[e].data) }
      entries := put s.entries e { s.entries[e] with state := .draining, memTag := some τ }
      counters := { s.counters with drainsIssued := satAdd s.counters.drainsIssued 1 } } := by
  simp only [grantDrain, issueForEntry_spec h, get_put_self, setEntry, put_put]
  rfl

/-- Settles O34: a chosen drain finds a FREE tag and HOLD deasserted. -/
theorem drainIsGranted : Obligations.DrainIsGranted := by
  intro s e hr hchoose m
  have hissue := choose_drain_canIssue hchoose
  obtain ⟨-, hhold⟩ := canIssue_iff.1 hissue
  obtain ⟨τ, hτ⟩ := Option.isSome_iff_exists.1 (Bool.and_eq_true_iff.1 hissue).1
  obtain ⟨hfree, hlow⟩ := firstFreeTag_spec hτ
  refine ⟨τ, choose_drain hchoose, hfree, hlow, hhold, ?_⟩
  rw [exec_released hr, effect, nextDrainGrant, hchoose, ← keepLanes_eq]
  exact congrArg _ (grantDrain_spec hτ e)

/-! ## The judgements of a step on their own (R93, R106, R107, R110, R111) -/

theorem withReason_takesReason (m : MergeEntry) (r : Reason) (now : Time) :
    TakesReason r now m (withReason m r now) := by
  refine ⟨fun h => ?_, fun hopen hpending => withReason_other (eq_false_of_ne_true fun h => ?_) r now⟩
  · have hlive := entryLive_iff.2 h
    refine ⟨fun x => mem_withReason hlive r x now, ?_⟩
    rw [withReason_live hlive]
    cases demanded r <;> cases m.demandTime <;> rfl
  · exact (entryLive_iff.1 h).elim hopen hpending

/-- AGED is no demanded reason, so it reaches state and reasons only (R91). -/
theorem withReason_aged {m : MergeEntry} (h : entryLive m = true) (now : Time) :
    withReason m .aged now = { m with state := .drainPending, reasons := (withReason m .aged now).reasons } := by
  rw [withReason_live h]
  rfl

theorem judgeAged_below {s : State} {e : EntryId} (h : ¬ (entryLive s.entries[e] = true ∧
    s.active.holdLimit.toNat ≤ ageOf s.timeBase s.entries[e].firstMerge)) : judgeAged s e = s := by
  unfold judgeAged
  split
  · next haged =>
    have hdead : entryLive s.entries[e] = false := eq_false_of_ne_true fun hlive => h ⟨hlive, of_decide_eq_true haged⟩
    rw [addReason, withReason_other hdead, setEntry, put_get]
    rfl
  · rfl

theorem judgeUrgency_eq (s : State) (k : ClassId) :
    judgeUrgency s k = { s with urgent := (judgeUrgency s k).urgent, counters := (judgeUrgency s k).counters } := by
  unfold judgeUrgency
  split <;> rfl

theorem judgeUrgency_counters (s : State) (k : ClassId) :
    (judgeUrgency s k).counters = { s.counters with perClass := (judgeUrgency s k).counters.perClass } := by
  obtain ⟨-, hcounters⟩ := judgeUrgency_spec s k
  rw [hcounters]
  split <;> rfl

/-- A class counts an episode where its own flag becomes set (R111). -/
theorem judgeUrgency_episodes (s : State) (k j : ClassId) :
    (judgeUrgency s k).counters.perClass[j] = { s.counters.perClass[j] with
      urgentEpisodes := satAdd s.counters.perClass[j].urgentEpisodes
        (if j = k ∧ urgentNow s k = true ∧ s.urgent[k] = false then 1 else 0) } := by
  obtain ⟨-, hcounters⟩ := judgeUrgency_spec s k
  rw [hcounters]
  by_cases hnew : urgentNow s k = true ∧ s.urgent[k] = false
  · rw [if_pos hnew]
    by_cases hj : j = k
    · subst hj
      rw [if_pos ⟨rfl, hnew⟩, get_put_self]
    · rw [if_neg fun h => hj h.1, get_put_ne _ _ hj, satAdd_zero]
  · rw [if_neg hnew, if_neg fun h => hnew h.2, satAdd_zero]

/-- Settles O45: a refill expires where the count has reached the period in force, AGED is added to an entry that takes
reasons, and an urgency flag that becomes set counts one episode. -/
theorem judgementsOnTheirOwn : Obligations.JudgementsOnTheirOwn := by
  refine ⟨withReason_takesReason, fun s hr => ?_⟩
  obtain ⟨hdue, hnotDue⟩ := judgeRefill_spec s
  have hstays (h : s.refillCount < s.periodInForce.toNat) : exec .refillExpiry s = .next s :=
    (exec_released hr).trans (congrArg _ (hnotDue h))
  refine ⟨fun h => ⟨_, exec_released hr, fun k => ?_, ?_⟩, hstays, fun ⟨_, hcount, _⟩ => hstays hcount,
    fun e hlive haged => ⟨_, exec_released hr, ?_⟩, fun e h => (exec_released hr).trans (congrArg _ (judgeAged_below h)),
    fun k => ⟨_, exec_released hr, ?_⟩⟩
  · rw [effect, hdue h]
    exact (get_tabulate _ k).trans (refilled_eq _ _ _)
  · rw [effect, hdue h]
  · have hjudged : judgeAged s e = addReason s e .aged := if_pos (decide_eq_true haged)
    have hself : (addReason s e .aged).entries[e] = withReason s.entries[e] .aged s.timeBase := get_put_self ..
    rw [effect, hjudged, hself]
    refine ⟨by rw [withReason_aged hlive], fun r => mem_withReason hlive .aged r s.timeBase, ?_, rfl⟩
    rw [addReason_entries, ← withReason_aged hlive]
  · obtain ⟨hurgent, -⟩ := judgeUrgency_spec s k
    exact ⟨hurgent, judgeUrgency_episodes s k, judgeUrgency_counters s k, judgeUrgency_eq s k⟩

/-! ## The wait set of one fence as slots and entries leave it (R98, R134, R151, R152) -/

/-- What is left of a record once the slots `gone` and the entries `drained` have left its wait set and, where `lost`
holds, its mark is set. -/
def fenceLeft (lost : Bool) (gone : SlotId → Bool) (drained : EntryId → Bool) (f : FenceRecord) : FenceRecord :=
  { f with
    faulted := f.faulted || lost
    waitSlots := f.waitSlots.filter (fun i => !gone i), waitEntries := f.waitEntries.filter (fun e => !drained e) }

/-- A WAITING record once the slots and entries have left: settled where one of them stood in its wait set. -/
def fenceAfter (lost : Bool) (gone : SlotId → Bool) (drained : EntryId → Bool) (f : FenceRecord) : FenceRecord :=
  if f.waitSlots.any gone || f.waitEntries.any drained then settleFence (fenceLeft lost gone drained f)
  else fenceLeft lost gone drained f

theorem settleFence_frame (f : FenceRecord) : (settleFence f).initiator = f.initiator ∧
    (settleFence f).waitSlots = f.waitSlots ∧ (settleFence f).waitEntries = f.waitEntries := by
  unfold settleFence
  split <;> exact ⟨rfl, rfl, rfl⟩

section
variable {lost : Bool} {gone : SlotId → Bool} {drained : EntryId → Bool} {f : FenceRecord}

theorem fenceAfter_frame : (fenceAfter lost gone drained f).initiator = f.initiator ∧
    (fenceAfter lost gone drained f).waitSlots = f.waitSlots.filter (fun i => !gone i) ∧
    (fenceAfter lost gone drained f).waitEntries = f.waitEntries.filter (fun e => !drained e) := by
  unfold fenceAfter
  split
  · exact settleFence_frame _
  · exact ⟨rfl, rfl, rfl⟩

theorem mem_fenceAfter_slots {i : SlotId} (h : gone i = false) :
    i ∈ (fenceAfter lost gone drained f).waitSlots ↔ i ∈ f.waitSlots := by
  obtain ⟨-, hslots, -⟩ := fenceAfter_frame (lost := lost) (gone := gone) (drained := drained) (f := f)
  rw [hslots, List.mem_filter, h]
  exact and_iff_left rfl

theorem mem_fenceAfter_entries {e : EntryId} (h : drained e = false) :
    e ∈ (fenceAfter lost gone drained f).waitEntries ↔ e ∈ f.waitEntries := by
  obtain ⟨-, -, hentries⟩ := fenceAfter_frame (lost := lost) (gone := gone) (drained := drained) (f := f)
  rw [hentries, List.mem_filter, h]
  exact and_iff_left rfl

/-- While a member is left in the wait set the record waits on. -/
theorem fenceAfter_held (h : (fenceAfter lost gone drained f).waitSlots ≠ [] ∨
    (fenceAfter lost gone drained f).waitEntries ≠ []) : fenceAfter lost gone drained f = fenceLeft lost gone drained f := by
  obtain ⟨-, hslots, hentries⟩ := fenceAfter_frame (lost := lost) (gone := gone) (drained := drained) (f := f)
  rw [hslots, hentries] at h
  obtain ⟨-, hstays⟩ := settleFence_spec (fenceLeft lost gone drained f)
  have hsame : settleFence (fenceLeft lost gone drained f) = fenceLeft lost gone drained f :=
    hstays fun ⟨hs, _, he⟩ => h.elim (fun h => h hs) fun h => h he
  rw [fenceAfter, hsame, ite_self]

/-- Only the members of the record's wait set matter. -/
theorem fenceAfter_congr {gone' : SlotId → Bool} {drained' : EntryId → Bool} (slots : ∀ i ∈ f.waitSlots, gone' i = gone i)
    (entries : ∀ e ∈ f.waitEntries, drained' e = drained e) :
    fenceAfter lost gone' drained' f = fenceAfter lost gone drained f := by
  have hslots : f.waitSlots.filter (fun i => !gone' i) = f.waitSlots.filter (fun i => !gone i) :=
    List.filter_congr fun i hi => by rw [slots i hi]
  have hentries : f.waitEntries.filter (fun e => !drained' e) = f.waitEntries.filter (fun e => !drained e) :=
    List.filter_congr fun e he => by rw [entries e he]
  have hleft : fenceLeft lost gone' drained' f = fenceLeft lost gone drained f := by
    rw [fenceLeft, hslots, hentries]
    rfl
  have hsome : f.waitSlots.any gone' = f.waitSlots.any gone := by
    rw [Bool.eq_iff_iff, List.any_eq_true, List.any_eq_true]
    exact exists_congr fun i => and_congr_right fun hi => by rw [slots i hi]
  have hsome' : f.waitEntries.any drained' = f.waitEntries.any drained := by
    rw [Bool.eq_iff_iff, List.any_eq_true, List.any_eq_true]
    exact exists_congr fun e => and_congr_right fun he => by rw [entries e he]
  rw [fenceAfter, hleft, hsome, hsome']
  rfl

/-- A mark set while a member is left is a mark of what is left. -/
theorem fenceAfter_marked (hw : f.state = .waiting) {b : Bool} (h : b = true →
    (fenceAfter lost gone drained f).waitSlots ≠ [] ∨ (fenceAfter lost gone drained f).waitEntries ≠ []) :
    (if (fenceAfter lost gone drained f).state = .waiting ∧ b = true
      then { fenceAfter lost gone drained f with faulted := true } else fenceAfter lost gone drained f) =
    fenceAfter (lost || b) gone drained f := by
  cases b with
  | false => rw [if_neg (by simp), Bool.or_false]
  | true =>
    obtain ⟨-, hslots, hentries⟩ := fenceAfter_frame (lost := lost) (gone := gone) (drained := drained) (f := f)
    obtain ⟨-, hslots', hentries'⟩ := fenceAfter_frame (lost := lost || true) (gone := gone) (drained := drained) (f := f)
    have hleft := fenceAfter_held (h rfl)
    have hleft' : fenceAfter (lost || true) gone drained f = fenceLeft (lost || true) gone drained f :=
      fenceAfter_held (by rw [hslots', hentries', ← hslots, ← hentries]; exact h rfl)
    rw [hleft', hleft, if_pos ⟨hw, rfl⟩]
    simp only [fenceLeft, Bool.or_true]

/-- A slot that has not left yet leaves (R151, R152). -/
theorem dropSlot_fenceAfter (hw : f.state = .waiting) {i : SlotId} (h : gone i = false) :
    dropSlot i (fenceAfter lost gone drained f) = fenceAfter lost (fun j => gone j || j == i) drained f := by
  obtain ⟨hleaves, hstays⟩ := dropSlot_spec i (fenceAfter lost gone drained f)
  by_cases hi : i ∈ f.waitSlots
  · have hmem := (mem_fenceAfter_slots (lost := lost) (drained := drained) h).2 hi
    have hleft := fenceAfter_held (.inl (List.ne_nil_of_mem hmem))
    have hstate : (fenceAfter lost gone drained f).state = .waiting := by rw [hleft]; exact hw
    have hany : f.waitSlots.any (fun j => gone j || j == i) = true :=
      List.any_eq_true.2 ⟨i, hi, by rw [beq_self_eq_true, Bool.or_true]⟩
    rw [hleaves hstate hmem, hleft, fenceAfter, hany, Bool.true_or, if_pos rfl]
    simp only [fenceLeft, without, List.filter_filter, Bool.not_or, bne, Bool.and_comm]
  · rw [hstays fun hk => hi ((mem_fenceAfter_slots h).1 hk.2)]
    refine (fenceAfter_congr (fun j hj => ?_) fun _ _ => rfl).symm
    rw [beq_eq_false_iff_ne.2 fun he : j = i => hi (he ▸ hj), Bool.or_false]

/-- An entry that has not left yet leaves (R151, R152). -/
theorem dropEntry_fenceAfter (hw : f.state = .waiting) {e : EntryId} (h : drained e = false) :
    dropEntry e (fenceAfter lost gone drained f) = fenceAfter lost gone (fun d => drained d || d == e) f := by
  obtain ⟨hleaves, hstays⟩ := dropEntry_spec e (fenceAfter lost gone drained f)
  by_cases he : e ∈ f.waitEntries
  · have hmem := (mem_fenceAfter_entries (lost := lost) (gone := gone) h).2 he
    have hleft := fenceAfter_held (.inr (List.ne_nil_of_mem hmem))
    have hstate : (fenceAfter lost gone drained f).state = .waiting := by rw [hleft]; exact hw
    have hany : f.waitEntries.any (fun d => drained d || d == e) = true :=
      List.any_eq_true.2 ⟨e, he, by rw [beq_self_eq_true, Bool.or_true]⟩
    rw [hleaves hstate hmem, hleft, fenceAfter, hany, Bool.or_true, if_pos rfl]
    simp only [fenceLeft, without, List.filter_filter, Bool.not_or, bne, Bool.and_comm]
  · rw [hstays fun hk => he ((mem_fenceAfter_entries h).1 hk.2)]
    refine (fenceAfter_congr (fun _ _ => rfl) fun d hd => ?_).symm
    rw [beq_eq_false_iff_ne.2 fun hk : d = e => he (hk ▸ hd), Bool.or_false]

/-- The record as the statements name it: marked, and then left by its members. -/
theorem fenceAfter_leaves (hw : f.state = .waiting) : LeavesWaitSets
    (fun f => (∃ i ∈ f.waitSlots, gone i = true) ∨ ∃ e ∈ f.waitEntries, drained e = true)
    (fun f => { f with
      waitSlots := f.waitSlots.filter (fun i => !gone i), waitEntries := f.waitEntries.filter (fun e => !drained e) })
    { f with faulted := f.faulted || lost } (fenceAfter lost gone drained f) := by
  have hany : (f.waitSlots.any gone || f.waitEntries.any drained) = true ↔
      (∃ i ∈ f.waitSlots, gone i = true) ∨ ∃ e ∈ f.waitEntries, drained e = true := by
    rw [Bool.or_eq_true, List.any_eq_true, List.any_eq_true]
  refine leavesWaitSets_of rfl (fun _ hm => ?_) fun hm => ?_
  · rw [fenceAfter, if_pos (hany.2 hm)]
    rfl
  · have hno := fun h => hm ⟨hw, hany.1 h⟩
    have hslots : f.waitSlots.filter (fun i => !gone i) = f.waitSlots := List.filter_eq_self.2 fun i hi => by
      rw [Bool.not_eq_true']
      exact eq_false_of_ne_true fun h => hm ⟨hw, .inl ⟨i, hi, h⟩⟩
    have hentries : f.waitEntries.filter (fun e => !drained e) = f.waitEntries := List.filter_eq_self.2 fun e he => by
      rw [Bool.not_eq_true']
      exact eq_false_of_ne_true fun h => hm ⟨hw, .inr ⟨e, he, h⟩⟩
    rw [fenceAfter, if_neg hno, fenceLeft, hslots, hentries]

end

/-! ## What a list of timed-out ops asks of each source (R99, R100, R136) -/

/-- The entry whose drain the op is. -/
def drainOf (op : OutstandingOp) : Option EntryId :=
  match op.source with
  | .entry e => some e
  | .slot _ => none

/-- The entries whose drains are among the ops, in their order. -/
def drainsOf (ops : List OutstandingOp) : List EntryId := ops.filterMap drainOf

/-- The slot's op is among the ops. -/
def opEnds (ops : List OutstandingOp) (i : SlotId) : Bool := ops.any (fun op => op.source == .slot i)

/-- A posted direct write whose op is among the ops (R134). -/
def losesPost (ops : List OutstandingOp) (slots : Vector Slot 48) (i : SlotId) : Bool :=
  opEnds ops i && slots[i].state == .done

/-- A posted direct write that leaves with its op, its response having been delivered (R42). -/
def leavesStore (ops : List OutstandingOp) (slots : Vector Slot 48) (i : SlotId) : Bool :=
  losesPost ops slots i && slots[i].delivered

/-- An ISSUED slot ended by its op's timeout (R136). -/
def abandonedSlot (x : Slot) : Slot :=
  { x with state := .done, status := some (if x.abort then .errAbort else .errTimeout), memTag := none }

/-- The slot once the ops have timed out. -/
def timedSlot (ops : List OutstandingOp) (slots : Vector Slot 48) (entries : Vector MergeEntry 16) (i : SlotId) : Slot :=
  if losesPost ops slots i then
    { slots[i] with memTag := none, state := if slots[i].delivered then .free else .done }
  else if opEnds ops i then abandonedSlot slots[i]
  else if ∃ e ∈ drainsOf ops, i ∈ entries[e].waiting then doneWith .errTimeout slots[i]
  else slots[i]

/-- The record of the data that an op's timeout loses (R98, R134, R155). -/
def timedRecord (slots : Vector Slot 48) (entries : Vector MergeEntry 16) (now : Time) (op : OutstandingOp) :
    Option FaultRecord :=
  match op.source with
  | .slot i => if slots[i].state = .done then some (slotLoss .timeout slots[i] now) else none
  | .entry e => some (entryLoss .timeout entries[e] now)

/-- A fence waits for posted data that the ops lose (R98, R134). -/
def fenceLoses (ops : List OutstandingOp) (slots : Vector Slot 48) (entries : Vector MergeEntry 16) (f : FenceRecord) :
    Bool :=
  f.waitSlots.any (losesPost ops slots) ||
    f.waitEntries.any (fun e => (drainsOf ops).contains e && isPosted entries[e].contributors[f.initiator])

/-- The fence once the ops have timed out. -/
def timedFence (ops : List OutstandingOp) (slots : Vector Slot 48) (entries : Vector MergeEntry 16) (f : FenceRecord) :
    FenceRecord :=
  if f.state = .waiting then
    fenceAfter (fenceLoses ops slots entries f) (leavesStore ops slots) (drainsOf ops).contains f
  else f

section
variable {ops : List OutstandingOp} {op : OutstandingOp} {slots : Vector Slot 48} {entries : Vector MergeEntry 16}

theorem mem_drainsOf {e : EntryId} : e ∈ drainsOf ops ↔ ∃ op ∈ ops, op.source = .entry e := by
  rw [drainsOf, List.mem_filterMap]
  refine exists_congr fun op => and_congr_right fun _ => ?_
  unfold drainOf
  cases op.source <;> simp

theorem opEnds_iff {i : SlotId} : opEnds ops i = true ↔ ∃ op ∈ ops, op.source = .slot i := by
  simp only [opEnds, List.any_eq_true, beq_iff_eq]

theorem opEnds_append (i : SlotId) : opEnds (ops ++ [op]) i = (opEnds ops i || op.source == .slot i) := by
  simp [opEnds]

/-! ### One more op, of a slot -/

variable {i : SlotId}

theorem drainsOf_append_slot (hsrc : op.source = .slot i) : drainsOf (ops ++ [op]) = drainsOf ops := by
  simp [drainsOf, drainOf, hsrc]

theorem opEnds_append_slot (hsrc : op.source = .slot i) (j : SlotId) :
    opEnds (ops ++ [op]) j = (opEnds ops j || j == i) := by
  have hsame : (Source.slot i == Source.slot j) = (j == i) := by
    rw [Bool.eq_iff_iff, beq_iff_eq, beq_iff_eq, Source.slot.injEq, eq_comm]
  rw [opEnds_append, hsrc, hsame]

theorem losesPost_append_posted (hsrc : op.source = .slot i) (hdone : slots[i].state = .done) (j : SlotId) :
    losesPost (ops ++ [op]) slots j = (losesPost ops slots j || j == i) := by
  rw [losesPost, losesPost, opEnds_append_slot hsrc]
  by_cases hj : j = i
  · subst hj
    rw [hdone, beq_self_eq_true, beq_self_eq_true, Bool.or_true, Bool.or_true, Bool.and_true]
  · rw [beq_eq_false_iff_ne.2 hj, Bool.or_false, Bool.or_false]

theorem leavesStore_append_posted (hsrc : op.source = .slot i) (hdone : slots[i].state = .done) (j : SlotId) :
    leavesStore (ops ++ [op]) slots j = (leavesStore ops slots j || (j == i && slots[i].delivered)) := by
  rw [leavesStore, leavesStore, losesPost_append_posted hsrc hdone, Bool.and_or_distrib_right]
  by_cases hj : j = i
  · rw [hj]
  · rw [beq_eq_false_iff_ne.2 hj, Bool.false_and, Bool.false_and]

theorem losesPost_append_issued (hsrc : op.source = .slot i) (hissued : slots[i].state = .issued) (j : SlotId) :
    losesPost (ops ++ [op]) slots j = losesPost ops slots j := by
  rw [losesPost, losesPost, opEnds_append_slot hsrc]
  by_cases hj : j = i
  · subst hj
    rw [hissued]
    exact (Bool.and_false _).trans (Bool.and_false _).symm
  · rw [beq_eq_false_iff_ne.2 hj, Bool.or_false]

/-- A slot keeps what the ops before made of it, where the new op is another slot's. -/
theorem timedSlot_append_slot_ne (hsrc : op.source = .slot i) {j : SlotId} (hj : j ≠ i) :
    timedSlot (ops ++ [op]) slots entries j = timedSlot ops slots entries j := by
  have hends : opEnds (ops ++ [op]) j = opEnds ops j := by
    rw [opEnds_append_slot hsrc, beq_eq_false_iff_ne.2 hj, Bool.or_false]
  unfold timedSlot losesPost
  rw [hends, drainsOf_append_slot hsrc]

theorem timedSlot_append_issued (hsrc : op.source = .slot i) (hissued : slots[i].state = .issued) :
    timedSlot (ops ++ [op]) slots entries i = abandonedSlot slots[i] := by
  have hposted : losesPost (ops ++ [op]) slots i = false := by
    rw [losesPost, hissued]
    exact Bool.and_false _
  have hends : opEnds (ops ++ [op]) i = true := by rw [opEnds_append_slot hsrc, beq_self_eq_true, Bool.or_true]
  simp only [timedSlot, hposted, hends, Bool.false_eq_true, if_false, if_true]

theorem timedSlot_append_posted (hsrc : op.source = .slot i) (hdone : slots[i].state = .done) :
    timedSlot (ops ++ [op]) slots entries i =
      { slots[i] with memTag := none, state := if slots[i].delivered then .free else .done } := by
  have hposted : losesPost (ops ++ [op]) slots i = true := by
    rw [losesPost_append_posted hsrc hdone, beq_self_eq_true, Bool.or_true]
  simp only [timedSlot, hposted, if_true]

/-! ### One more op, of an entry -/

variable {e : EntryId}

theorem drainsOf_append_entry (hsrc : op.source = .entry e) : drainsOf (ops ++ [op]) = drainsOf ops ++ [e] := by
  simp [drainsOf, drainOf, hsrc]

theorem opEnds_append_entry (hsrc : op.source = .entry e) : opEnds (ops ++ [op]) = opEnds ops :=
  funext fun j => by
    rw [opEnds_append, hsrc]
    exact Bool.or_false _

theorem losesPost_append_entry (hsrc : op.source = .entry e) : losesPost (ops ++ [op]) = losesPost ops := by
  funext slots j
  rw [losesPost, losesPost, opEnds_append_entry hsrc]

theorem leavesStore_append_entry (hsrc : op.source = .entry e) : leavesStore (ops ++ [op]) = leavesStore ops := by
  funext slots j
  rw [leavesStore, leavesStore, losesPost_append_entry hsrc]

/-- The confirmations that wait on the entry are answered, and no slot else changes. -/
theorem timedSlot_append_entry (hsrc : op.source = .entry e) {j : SlotId}
    (hwaits : j ∈ entries[e].waiting → opEnds ops j = false) : timedSlot (ops ++ [op]) slots entries j =
      if j ∈ entries[e].waiting then doneWith .errTimeout (timedSlot ops slots entries j)
      else timedSlot ops slots entries j := by
  have hdrains : (∃ d ∈ drainsOf (ops ++ [op]), j ∈ entries[d].waiting) ↔
      (∃ d ∈ drainsOf ops, j ∈ entries[d].waiting) ∨ j ∈ entries[e].waiting := by
    rw [drainsOf_append_entry hsrc]
    simp only [List.mem_append, List.mem_singleton, or_and_right, exists_or, exists_eq_left]
  unfold timedSlot
  rw [losesPost_append_entry hsrc, opEnds_append_entry hsrc, if_congr hdrains rfl rfl]
  by_cases hj : j ∈ entries[e].waiting
  · have hends := hwaits hj
    have hposted : losesPost ops slots j = false := by rw [losesPost, hends, Bool.false_and]
    simp only [hj, hends, hposted, Bool.false_eq_true, if_false, if_true, or_true]
    split <;> rfl
  · simp only [hj, or_false, if_false]

/-! ### The fences -/

theorem timedFence_waiting {f : FenceRecord} (h : f.state = .waiting) : timedFence ops slots entries f =
    fenceAfter (fenceLoses ops slots entries f) (leavesStore ops slots) (drainsOf ops).contains f := if_pos h

theorem timedFence_settled {f : FenceRecord} (h : f.state ≠ .waiting) : timedFence ops slots entries f = f := if_neg h

theorem timedFence_append_issued (hsrc : op.source = .slot i) (hissued : slots[i].state = .issued) (f : FenceRecord) :
    timedFence (ops ++ [op]) slots entries f = timedFence ops slots entries f := by
  have hposted : losesPost (ops ++ [op]) slots = losesPost ops slots :=
    funext (losesPost_append_issued hsrc hissued)
  have hleaves : leavesStore (ops ++ [op]) slots = leavesStore ops slots :=
    funext fun j => by rw [leavesStore, leavesStore, hposted]
  rw [timedFence, fenceLoses, hposted, hleaves, drainsOf_append_slot hsrc]
  rfl

/-- The loss of a posted direct write marks the fences that wait for it, before a delivered slot leaves them. -/
theorem timedFence_append_posted (hsrc : op.source = .slot i) (hdone : slots[i].state = .done)
    (hfirst : opEnds ops i = false) (f : FenceRecord) :
    let g := timedFence ops slots entries f
    let marked := if g.state = .waiting ∧ i ∈ g.waitSlots then { g with faulted := true } else g
    timedFence (ops ++ [op]) slots entries f = if slots[i].delivered then dropSlot i marked else marked := by
  intro g marked
  by_cases hw : f.state = .waiting
  · let lost := fenceLoses ops slots entries f || f.waitSlots.contains i
    have hstay : leavesStore ops slots i = false := by
      rw [leavesStore, losesPost, hfirst, Bool.false_and, Bool.false_and]
    have hlost : fenceLoses (ops ++ [op]) slots entries f = lost := by
      have hsome : f.waitSlots.any (losesPost (ops ++ [op]) slots) =
          (f.waitSlots.any (losesPost ops slots) || f.waitSlots.contains i) := by
        rw [Bool.eq_iff_iff, Bool.or_eq_true, List.any_eq_true, List.any_eq_true, List.contains_iff_mem]
        simp only [losesPost_append_posted hsrc hdone, Bool.or_eq_true, beq_iff_eq, and_or_left, exists_or,
          exists_eq_right]
      simp only [lost, fenceLoses, hsome, drainsOf_append_slot hsrc, Bool.or_assoc, Bool.or_comm]
    have hg : g = fenceAfter (fenceLoses ops slots entries f) (leavesStore ops slots) (drainsOf ops).contains f :=
      timedFence_waiting hw
    have hmem : i ∈ g.waitSlots ↔ f.waitSlots.contains i = true := by
      rw [hg, mem_fenceAfter_slots hstay, List.contains_iff_mem]
    have hmarked : marked = fenceAfter lost (leavesStore ops slots) (drainsOf ops).contains f := by
      simp only [marked, hmem]
      rw [hg]
      exact fenceAfter_marked hw fun h => .inl (List.ne_nil_of_mem (hg ▸ hmem.2 h))
    rw [timedFence_waiting hw, hlost, drainsOf_append_slot hsrc, hmarked]
    split
    · next hd =>
      rw [dropSlot_fenceAfter hw hstay]
      exact fenceAfter_congr (fun j _ => by rw [leavesStore_append_posted hsrc hdone, hd, Bool.and_true]) fun _ _ => rfl
    · next hd =>
      refine fenceAfter_congr (fun j _ => ?_) fun _ _ => rfl
      rw [leavesStore_append_posted hsrc hdone, eq_false_of_ne_true hd, Bool.and_false, Bool.or_false]
  · have hg : g = f := timedFence_settled hw
    have hmarked : marked = f := by rw [← hg]; exact if_neg fun h => hw (hg ▸ h.1)
    obtain ⟨-, hstays⟩ := dropSlot_spec i f
    rw [timedFence_settled hw, hmarked, hstays fun h => hw h.1, ite_self]

/-- The loss of an entry marks the fences that wait for it and have posted data in it, before it leaves them. -/
theorem timedFence_append_entry (hsrc : op.source = .entry e) (hfirst : e ∉ drainsOf ops) (f : FenceRecord) :
    let g := timedFence ops slots entries f
    timedFence (ops ++ [op]) slots entries f = dropEntry e (if g.state = .waiting ∧ e ∈ g.waitEntries ∧
      entries[e].contributors[g.initiator] = some .posted then { g with faulted := true } else g) := by
  intro g
  by_cases hw : f.state = .waiting
  · let b := f.waitEntries.contains e && isPosted entries[e].contributors[f.initiator]
    let lost := fenceLoses ops slots entries f || b
    have hstay : (drainsOf ops).contains e = false := by
      rw [← Bool.not_eq_true, List.contains_iff_mem]
      exact hfirst
    have hcontains (d : EntryId) : (drainsOf (ops ++ [op])).contains d = ((drainsOf ops).contains d || d == e) := by
      rw [drainsOf_append_entry hsrc, Bool.eq_iff_iff]
      simp
    have hlost : fenceLoses (ops ++ [op]) slots entries f = lost := by
      have hsome : f.waitEntries.any (fun d =>
            (drainsOf (ops ++ [op])).contains d && isPosted entries[d].contributors[f.initiator]) =
          (f.waitEntries.any (fun d => (drainsOf ops).contains d && isPosted entries[d].contributors[f.initiator]) ||
            b) := by
        rw [Bool.eq_iff_iff, Bool.or_eq_true, List.any_eq_true, List.any_eq_true, Bool.and_eq_true,
          List.contains_iff_mem]
        simp only [hcontains, Bool.and_eq_true, Bool.or_eq_true, beq_iff_eq, or_and_right, and_or_left, exists_or,
          and_left_comm (b := _ = e), exists_eq_left]
      rw [fenceLoses, hsome, losesPost_append_entry hsrc, ← Bool.or_assoc]
      rfl
    obtain ⟨hinit, -⟩ := fenceAfter_frame (lost := fenceLoses ops slots entries f) (gone := leavesStore ops slots)
      (drained := (drainsOf ops).contains) (f := f)
    have hg : g = fenceAfter (fenceLoses ops slots entries f) (leavesStore ops slots) (drainsOf ops).contains f :=
      timedFence_waiting hw
    have hmem : e ∈ g.waitEntries ↔ e ∈ f.waitEntries := by rw [hg, mem_fenceAfter_entries hstay]
    have hmark : (e ∈ g.waitEntries ∧ entries[e].contributors[g.initiator] = some .posted) ↔ b = true := by
      have hinit' : g.initiator = f.initiator := hg ▸ hinit
      simp only [hmem, hinit', b, Bool.and_eq_true, List.contains_iff_mem, isPosted_iff]
    have hmarked := fenceAfter_marked (lost := fenceLoses ops slots entries f) (gone := leavesStore ops slots)
      (drained := (drainsOf ops).contains) hw (b := b) fun h => .inr (List.ne_nil_of_mem (hg ▸ (hmark.2 h).1))
    rw [timedFence_waiting hw, hlost, leavesStore_append_entry hsrc, if_congr (and_congr_right' hmark) rfl rfl, hg,
      hmarked, dropEntry_fenceAfter hw hstay]
    exact fenceAfter_congr (fun _ _ => rfl) fun d _ => hcontains d
  · have hg : g = f := timedFence_settled hw
    obtain ⟨-, hstays⟩ := dropEntry_spec e f
    rw [timedFence_settled hw, if_neg fun h => hw (hg ▸ h.1), hg, hstays fun h => hw h.1]

end

/-! ## Which ops time out, and what is counted (R128, R136, R200) -/

/-- The op of the tag, where it is at or beyond the response timeout. -/
def dueOp (s : State) (τ : TagId) : Option OutstandingOp :=
  match s.tags[τ] with
  | .outstanding op => if s.active.responseTimeout.toNat ≤ ageOf s.timeBase op.issueTime then some op else none
  | .free | .quarantined => none

/-- The ops of the tags that time out, in the tags' order. -/
def dueOps (s : State) (τs : List TagId) : List OutstandingOp := τs.filterMap (dueOp s)

theorem dueOps_append_none {s : State} {τs : List TagId} {τ : TagId} (h : dueOp s τ = none) :
    dueOps s (τs ++ [τ]) = dueOps s τs := by
  rw [dueOps, List.filterMap_append, List.filterMap_cons_none h, List.filterMap_nil, List.append_nil]
  rfl

theorem dueOps_append_some {s : State} {τs : List TagId} {τ : TagId} {op : OutstandingOp} (h : dueOp s τ = some op) :
    dueOps s (τs ++ [τ]) = dueOps s τs ++ [op] := by
  rw [dueOps, List.filterMap_append, List.filterMap_cons_some h, List.filterMap_nil]
  rfl

theorem dueOp_eq_some {s : State} {τ : TagId} {op : OutstandingOp} : dueOp s τ = some op ↔
    s.tags[τ] = .outstanding op ∧ s.active.responseTimeout.toNat ≤ ageOf s.timeBase op.issueTime := by
  unfold dueOp
  cases s.tags[τ] with
  | free => exact ⟨nofun, fun h => nomatch h.1⟩
  | quarantined => exact ⟨nofun, fun h => nomatch h.1⟩
  | outstanding o =>
    dsimp only
    split
    · next h =>
      rw [Option.some.injEq, TagRecord.outstanding.injEq]
      exact ⟨fun he => ⟨he, he ▸ h⟩, And.left⟩
    · next h => exact ⟨nofun, fun ⟨he, hd⟩ => absurd (TagRecord.outstanding.inj he ▸ hd) h⟩

theorem dueOp_congr {s t : State} {τ : TagId} (tags : t.tags[τ] = s.tags[τ]) (active : t.active = s.active)
    (timeBase : t.timeBase = s.timeBase) : dueOp t τ = dueOp s τ := by
  rw [dueOp, tags, active, timeBase]
  rfl

theorem judgeTimeout_due {s : State} {τ : TagId} {op : OutstandingOp} (h : dueOp s τ = some op) :
    judgeTimeout s τ = timeOut s τ op := by
  obtain ⟨htag, hdue⟩ := dueOp_eq_some.1 h
  simp only [judgeTimeout, htag]
  exact if_pos (decide_eq_true hdue)

theorem judgeTimeout_stays {s : State} {τ : TagId} (h : dueOp s τ = none) : judgeTimeout s τ = s := by
  unfold judgeTimeout
  split
  · next op htag =>
    refine if_neg fun hdue => ?_
    rw [dueOp_eq_some.2 ⟨htag, of_decide_eq_true hdue⟩] at h
    cases h
  · rfl
  · rfl

/-- The end of an op reaches the causes only through the record that it hands. -/
theorem resolveSource_causes (s : State) (src : Source) (o : OpOutcome) : ∃ fr fo,
    (resolveSource s src o).causes = { s.causes with faultRecorded := fr, faultOverflow := fo } := by
  cases src with
  | slot i =>
    by_cases hd : s.slots[i].state = .done
    · obtain ⟨fl, ov, fr, fo, fe, hloss⟩ := recordSlotLoss_fields s i o
      obtain ⟨sl, ar, fe', hrelease⟩ := releaseTag_fields (recordSlotLoss s i o) i
      rw [resolveSource, resolveSlot_done hd, hrelease, hloss]
      exact ⟨_, _, rfl⟩
    · rw [resolveSource, resolveSlot, if_neg fun h => hd (beq_iff_eq.1 h)]
      exact ⟨_, _, rfl⟩
  | entry e =>
    obtain ⟨sl, fl, ov, fr, fo, fe, hanswered⟩ := drainAnswered_fields s e o
    obtain ⟨en, ln, fe', hfree⟩ := freeEntry_fields (drainAnswered s e o) e
    rw [resolveSource, resolveEntry_eq, hfree, hanswered]
    exact ⟨_, _, rfl⟩

theorem timeOut_tags (s : State) (τ : TagId) (op : OutstandingOp) :
    (timeOut s τ op).tags = put s.tags τ .quarantined := by
  have hsource : (resolveSource s op.source .timeout).tags = s.tags := by simp only [resolveSource_frame]
  rw [← hsource]
  rfl

theorem timeOut_counters (s : State) (τ : TagId) (op : OutstandingOp) :
    (timeOut s τ op).counters = { s.counters with timeouts := satAdd s.counters.timeouts 1 } := by
  have hsource : (resolveSource s op.source .timeout).counters = s.counters := by simp only [resolveSource_frame]
  rw [← hsource]
  rfl

theorem timeOut_causes (s : State) (τ : TagId) (op : OutstandingOp) : ∃ fr fo, (timeOut s τ op).causes =
    { s.causes with faultRecorded := fr, faultOverflow := fo, memTimeout := true } := by
  obtain ⟨fr, fo, h⟩ := resolveSource_causes s op.source .timeout
  have hcauses : (timeOut s τ op).causes = { (resolveSource s op.source .timeout).causes with memTimeout := true } := rfl
  rw [hcauses, h]
  exact ⟨_, _, rfl⟩

/-- The tags `τs` have been judged since `s`: what is counted and raised, and the tags. -/
structure TimeoutsCounted (s : State) (τs : List TagId) (t : State) : Prop where
  timeBase : t.timeBase = s.timeBase
  active : t.active = s.active
  tags : ∀ τ : TagId, t.tags[τ] = if τ ∈ τs ∧ (dueOp s τ).isSome = true then .quarantined else s.tags[τ]
  counters : t.counters = { s.counters with timeouts := satAdd s.counters.timeouts (dueOps s τs).length }
  causes : ∃ fr fo, t.causes = { s.causes with
    faultRecorded := fr, faultOverflow := fo, memTimeout := s.causes.memTimeout || !(dueOps s τs).isEmpty }

theorem TimeoutsCounted.nil (s : State) : TimeoutsCounted s [] s where
  timeBase := rfl
  active := rfl
  tags τ := by rw [if_neg fun h => List.not_mem_nil h.1]
  counters := by simp only [dueOps, List.filterMap_nil, List.length_nil, satAdd_zero]
  causes := ⟨s.causes.faultRecorded, s.causes.faultOverflow, by
    simp only [dueOps, List.filterMap_nil, List.isEmpty_nil, Bool.not_true, Bool.or_false]⟩

theorem TimeoutsCounted.due_eq {s t : State} {τs : List TagId} (h : TimeoutsCounted s τs t) {τ : TagId} (hτ : τ ∉ τs) :
    dueOp t τ = dueOp s τ :=
  dueOp_congr (by rw [h.tags, if_neg fun hm => hτ hm.1]) h.active h.timeBase

theorem TimeoutsCounted.step {s t : State} {τs : List TagId} (h : TimeoutsCounted s τs t) {τ : TagId} (hτ : τ ∉ τs) :
    TimeoutsCounted s (τs ++ [τ]) (judgeTimeout t τ) := by
  have hmem (σ : TagId) : σ ∈ τs ++ [τ] ↔ σ ∈ τs ∨ σ = τ := by rw [List.mem_append, List.mem_singleton]
  cases hd : dueOp s τ with
  | none =>
    have hsame := dueOps_append_none (τs := τs) hd
    rw [judgeTimeout_stays ((h.due_eq hτ).trans hd)]
    refine ⟨h.timeBase, h.active, fun σ => (h.tags σ).trans (if_congr ?_ rfl rfl), ?_, ?_⟩
    · rw [hmem]
      refine ⟨fun ⟨hs, hsome⟩ => ⟨.inl hs, hsome⟩, fun ⟨hs, hsome⟩ => ⟨hs.resolve_right ?_, hsome⟩⟩
      rintro rfl
      rw [hd] at hsome
      cases hsome
    · rw [hsame]
      exact h.counters
    · rw [hsame]
      exact h.causes
  | some op =>
    have hnext := dueOps_append_some (τs := τs) hd
    rw [judgeTimeout_due ((h.due_eq hτ).trans hd)]
    refine ⟨?_, ?_, fun σ => ?_, ?_, ?_⟩
    · rw [← h.timeBase]
      simp [timeOut]
    · rw [← h.active]
      simp [timeOut]
    · rw [timeOut_tags, get_put, h.tags]
      by_cases hσ : σ = τ
      · subst hσ
        rw [if_pos rfl, if_pos ⟨(hmem σ).2 (.inr rfl), by rw [hd]; rfl⟩]
      · simp only [hmem, hσ, if_false, or_false]
    · rw [timeOut_counters, h.counters, hnext, List.length_append, ← satAdd_satAdd]
      rfl
    · obtain ⟨fr, fo, hcauses⟩ := timeOut_causes t τ op
      obtain ⟨fr', fo', hcauses'⟩ := h.causes
      refine ⟨fr, fo, ?_⟩
      rw [hcauses, hcauses', hnext]
      simp

theorem foldl_judgeTimeout_counted (s : State) {τs : List TagId} (h : τs.Nodup) :
    TimeoutsCounted s τs (τs.foldl judgeTimeout s) := by
  induction τs using List.reverseRecOn with
  | nil => exact .nil s
  | append_singleton τs τ ih =>
    obtain ⟨hτs, -, hdisjoint⟩ := List.nodup_append.1 h
    rw [List.foldl_append]
    exact (ih hτs).step fun hm => hdisjoint τ hm τ (List.mem_singleton_self τ) rfl

theorem judgeAllTimeouts_counted (s : State) : TimeoutsCounted s (List.finRange 24) (judgeAllTimeouts s) :=
  foldl_judgeTimeout_counted s (List.nodup_finRange 24)

/-! ## The timeout of one source (R99, R134, R136) -/

/-- An ISSUED slot ends with ERR_TIMEOUT or, if marked, ERR_ABORT, whatever its kind. -/
theorem resolveSlot_timeout_issued {s : State} {i : SlotId} (h : s.slots[i].state = .issued) :
    resolveSlot s i .timeout = setSlot s i (abandonedSlot s.slots[i]) := by
  have hresult : issuedResult s.slots[i] .timeout =
      (if s.slots[i].abort then .errAbort else .errTimeout, s.slots[i].data) := by
    unfold issuedResult
    split
    · rfl
    · cases s.slots[i].kind <;> rfl
  rw [resolveSlot_issued h, resolveIssued, hresult, abandonedSlot]

theorem recordSlotLoss_timeout_fences (s : State) (i : SlotId) (k : FenceId) :
    (recordSlotLoss s i .timeout).fences[k] = if s.fences[k].state = .waiting ∧ i ∈ s.fences[k].waitSlots
      then { s.fences[k] with faulted := true } else s.fences[k] := by
  show (markSlotFences (handRecord s _) i).fences[k] = _
  rw [markSlotFences, Fin.getElem_fin, get_mapFences]
  simp only [handRecord_frame, Bool.and_eq_true, beq_iff_eq, List.contains_iff_mem, Fin.getElem_fin]

theorem resolveSlot_timeout_fences {s : State} {i : SlotId} (h : s.slots[i].state = .done) (k : FenceId) :
    let marked := if s.fences[k].state = .waiting ∧ i ∈ s.fences[k].waitSlots
      then { s.fences[k] with faulted := true } else s.fences[k]
    (resolveSlot s i .timeout).fences[k] = if s.slots[i].delivered then dropSlot i marked else marked := by
  have hslots : (recordSlotLoss s i .timeout).slots = s.slots := by simp only [recordSlotLoss_frame]
  rw [resolveSlot_done h, releaseTag_fences, hslots, recordSlotLoss_timeout_fences]

theorem resolveSlot_timeout_slots {s : State} {i : SlotId} (h : s.slots[i].state = .done) :
    (resolveSlot s i .timeout).slots[i] =
      { s.slots[i] with memTag := none, state := if s.slots[i].delivered then .free else .done } := by
  have hslots : (recordSlotLoss s i .timeout).slots = s.slots := by simp only [recordSlotLoss_frame]
  rw [resolveSlot_done h, releaseTag_slots, if_pos rfl, hslots, h]

theorem resolveSlot_timeout_arrival {s : State} {i : SlotId} (h : s.slots[i].state = .done) :
    (resolveSlot s i .timeout).arrival = if s.slots[i].delivered then without i s.arrival else s.arrival := by
  have hslots : (recordSlotLoss s i .timeout).slots = s.slots := by simp only [recordSlotLoss_frame]
  have harrival : (recordSlotLoss s i .timeout).arrival = s.arrival := by simp only [recordSlotLoss_frame]
  rw [resolveSlot_done h, releaseTag_arrival, hslots, harrival]

theorem resolveSlot_timeout_records {s : State} {i : SlotId} (h : s.slots[i].state = .done) :
    RecordsHanded s (resolveSlot s i .timeout) [slotLoss .timeout s.slots[i] s.timeBase] := by
  have hloss : RecordsHanded s (recordSlotLoss s i .timeout) [slotLoss .timeout s.slots[i] s.timeBase] :=
    RecordsHanded.congr (recordsHanded_handRecord s _) rfl rfl rfl rfl
  obtain ⟨sl, ar, fe, hrelease⟩ := releaseTag_fields (recordSlotLoss s i .timeout) i
  rw [resolveSlot_done h, hrelease]
  exact RecordsHanded.congr hloss rfl rfl rfl rfl

theorem drainAnswered_timeout_records (s : State) (e : EntryId) :
    RecordsHanded s (drainAnswered s e .timeout) [entryLoss .timeout s.entries[e] s.timeBase] := by
  obtain ⟨sl, hanswer⟩ := answerWaiting_fields s e .errTimeout
  have hloss := recordEntryLoss_records (answerWaiting s e .errTimeout) e .timeout
  show RecordsHanded s (recordEntryLoss (answerWaiting s e .errTimeout) e .timeout) _
  rw [hanswer] at hloss ⊢
  dsimp only at hloss
  rw [get_put_self] at hloss
  exact hloss

theorem resolveEntry_timeout_records (s : State) (e : EntryId) :
    RecordsHanded s (resolveEntry s e .timeout) [entryLoss .timeout s.entries[e] s.timeBase] := by
  obtain ⟨en, ln, fe, hfree⟩ := freeEntry_fields (drainAnswered s e .timeout) e
  rw [resolveEntry_eq, hfree]
  exact RecordsHanded.congr (drainAnswered_timeout_records s e) rfl rfl rfl rfl

theorem resolveEntry_timeout_fences (s : State) (e : EntryId) (k : FenceId) :
    (resolveEntry s e .timeout).fences[k] = dropEntry e (if s.fences[k].state = .waiting ∧ e ∈ s.fences[k].waitEntries ∧
      s.entries[e].contributors[s.fences[k].initiator] = some .posted
      then { s.fences[k] with faulted := true } else s.fences[k]) := by
  obtain ⟨sl, hanswer⟩ := answerWaiting_fields s e .errTimeout
  have hmarked := recordEntryLoss_fences (answerWaiting s e .errTimeout) e .timeout k
  have hanswered : drainAnswered s e .timeout = recordEntryLoss (answerWaiting s e .errTimeout) e .timeout := rfl
  rw [resolveEntry_eq, freeEntry_fences, hanswered, hmarked, hanswer]
  dsimp only
  rw [get_put_self]

theorem resolveEntry_entries (s : State) (e : EntryId) (o : OpOutcome) : (resolveEntry s e o).entries =
    pressured s.active.mergeReserve.toNat s.timeBase (put s.entries e MergeEntry.free) := by
  obtain ⟨sl, fl, ov, fr, fo, fe, hanswered⟩ := drainAnswered_fields s e o
  rw [resolveEntry_eq, freeEntry_entries, hanswered]
  dsimp only
  rw [put_put]

/-- The lines after a drain's op: no reference on the entry's own, and no list nor another line changes. -/
theorem resolveEntry_findLine (s : State) (e : EntryId) (o : OpOutcome) :
    mergeRef (resolveEntry s e o) s.entries[e].line = none ∧
    (∀ b, b ≠ s.entries[e].line → findLine (resolveEntry s e o) b = findLine s b) ∧
    ((s.lines.map (·.line)).Nodup → ∀ b, lineList (resolveEntry s e o) b = lineList s b) := by
  obtain ⟨sl, fl, ov, fr, fo, fe, hanswered⟩ := drainAnswered_fields s e o
  have hline : (drainAnswered s e o).entries[e].line = s.entries[e].line := by
    rw [hanswered]
    dsimp only
    rw [get_put_self]
  have hlines : (drainAnswered s e o).lines = s.lines := by rw [hanswered]
  obtain ⟨href, hother, hlists⟩ := freeEntry_findLine (drainAnswered s e o) e
  rw [resolveEntry_eq]
  rw [hline] at href hother
  refine ⟨href, fun b hb => (hother b hb).trans (findLine_congr hlines b), fun hnodup b => ?_⟩
  rw [hlists (hlines ▸ hnodup), lineList_congr hlines]

theorem pressured_not_opened (reserve : Nat) (now : Time) {es : Vector MergeEntry 16} {d : EntryId}
    (h : es[d].state ≠ .opened) : (pressured reserve now es)[d] = es[d] := by
  rw [pressured, get_tabulate, if_neg fun ⟨_, _, hopen, _⟩ => h hopen]

/-! ## Ops timed out one after another -/

/-- The entries once the drains among the ops have timed out: each FREE in turn, with PRESSURE judged (R94, R97). -/
def drainedEntries (s : State) (ops : List OutstandingOp) : Vector MergeEntry 16 :=
  (drainsOf ops).foldl
    (fun es e => pressured s.active.mergeReserve.toNat s.timeBase (put es e MergeEntry.free)) s.entries

/-- The ops have timed out, in this order, since `s`. -/
structure TimedOut (s : State) (ops : List OutstandingOp) (t : State) : Prop where
  timeBase : t.timeBase = s.timeBase
  active : t.active = s.active
  slots : ∀ i : SlotId, t.slots[i] = timedSlot ops s.slots s.entries i
  entries : t.entries = drainedEntries s ops
  draining : ∀ e : EntryId, e ∉ drainsOf ops → s.entries[e].state = .draining → t.entries[e] = s.entries[e]
  lists : ∀ a, lineList t a = lineList s a
  refs : ∀ e ∈ drainsOf ops, mergeRef t s.entries[e].line = none
  lines : ∀ a, (∀ e ∈ drainsOf ops, s.entries[e].line ≠ a) → findLine t a = findLine s a
  arrival : t.arrival = s.arrival.filter (fun i => !leavesStore ops s.slots i)
  records : RecordsHanded s t (ops.filterMap (timedRecord s.slots s.entries s.timeBase))
  fences : ∀ k : FenceId, t.fences[k] = timedFence ops s.slots s.entries s.fences[k]

theorem TimedOut.nil (s : State) : TimedOut s [] s where
  timeBase := rfl
  active := rfl
  slots i := by simp [timedSlot, losesPost, opEnds, drainsOf]
  entries := rfl
  draining _ _ _ := rfl
  lists _ := rfl
  refs _ h := absurd h List.not_mem_nil
  lines _ _ := rfl
  arrival := by simp [leavesStore, losesPost, opEnds]
  records := recordsHanded_nil rfl rfl rfl rfl
  fences k := by
    have hposted : losesPost [] s.slots = fun _ => false := rfl
    have hnone {α : Type} (l : List α) : l.any (fun _ => false) = false :=
      List.any_eq_false.2 fun _ _ => Bool.false_ne_true
    by_cases hw : s.fences[k].state = .waiting
    · rw [timedFence_waiting hw]
      simp [fenceAfter, fenceLeft, fenceLoses, leavesStore, hposted, hnone, drainsOf]
    · rw [timedFence_settled hw]

section
variable {s t : State} {ops : List OutstandingOp} {op : OutstandingOp} {τ : TagId}

/-- A slot whose op has not ended and that waits on no entry is as it was. -/
theorem TimedOut.slot (h : TimedOut s ops t) {i : SlotId} (hends : opEnds ops i = false)
    (hwaits : ∀ e : EntryId, i ∉ s.entries[e].waiting) : t.slots[i] = s.slots[i] := by
  have hposted : losesPost ops s.slots i = false := by rw [losesPost, hends, Bool.false_and]
  rw [h.slots, timedSlot, hposted, hends]
  simp only [Bool.false_eq_true, if_false]
  rw [if_neg fun ⟨e, _, he⟩ => hwaits e he]

/-- The timeout of a further op, an ISSUED slot's. -/
theorem TimedOut.issued (h : TimedOut s ops t) {i : SlotId} (hsrc : op.source = .slot i)
    (hslot : t.slots[i] = s.slots[i]) (hissued : s.slots[i].state = .issued) :
    TimedOut s (ops ++ [op]) (timeOut t τ op) := by
  have hout : timeOut t τ op = raiseMemTimeout (countTimeout
      (setTag (setSlot t i (abandonedSlot s.slots[i])) τ .quarantined)) := by
    rw [timeOut, hsrc, resolveSource, resolveSlot_timeout_issued (by rw [hslot]; exact hissued), hslot]
  have hleaves : leavesStore (ops ++ [op]) s.slots = leavesStore ops s.slots := funext fun j => by
    rw [leavesStore, leavesStore, losesPost_append_issued hsrc hissued]
  have hrecord : timedRecord s.slots s.entries s.timeBase op = none := by
    rw [timedRecord, hsrc]
    exact if_neg (by rw [hissued]; nofun)
  have hdrains := drainsOf_append_slot (ops := ops) hsrc
  rw [hout]
  refine ⟨h.timeBase, h.active, fun j => ?_, h.entries.trans ?_, fun e he => h.draining e (hdrains ▸ he), h.lists,
    fun e he => h.refs e (hdrains ▸ he), fun a ha => h.lines a (hdrains ▸ ha), ?_, ?_, fun k => ?_⟩
  · refine (get_setSlot t i j (abandonedSlot s.slots[i])).trans ?_
    by_cases hj : j = i
    · subst hj
      rw [if_pos rfl, timedSlot_append_issued hsrc hissued]
    · rw [if_neg hj, timedSlot_append_slot_ne hsrc hj]
      exact h.slots j
  · rw [drainedEntries, drainedEntries, hdrains]
  · rw [hleaves]
    exact h.arrival
  · rw [List.filterMap_append, List.filterMap_cons_none hrecord, List.filterMap_nil, List.append_nil]
    exact RecordsHanded.congr h.records rfl rfl rfl rfl
  · rw [timedFence_append_issued hsrc hissued]
    exact h.fences k

/-- The timeout of a further op, a posted direct write's. -/
theorem TimedOut.posted (h : TimedOut s ops t) {i : SlotId} (hsrc : op.source = .slot i)
    (hslot : t.slots[i] = s.slots[i]) (hdone : s.slots[i].state = .done) (hfirst : opEnds ops i = false) :
    TimedOut s (ops ++ [op]) (timeOut t τ op) := by
  have hdone' : t.slots[i].state = .done := by rw [hslot]; exact hdone
  have hout : timeOut t τ op =
      raiseMemTimeout (countTimeout (setTag (resolveSlot t i .timeout) τ .quarantined)) := by
    rw [timeOut, hsrc, resolveSource]
  have hframe : (resolveSlot t i .timeout).timeBase = t.timeBase ∧ (resolveSlot t i .timeout).active = t.active ∧
      (resolveSlot t i .timeout).entries = t.entries ∧ (resolveSlot t i .timeout).lines = t.lines := by simp
  obtain ⟨vtime, vactive, ventries, vlines⟩ := hframe
  have hothers (j : SlotId) (hj : j ≠ i) := resolveSlot_slots_ne t .timeout hj
  have hself := resolveSlot_timeout_slots hdone'
  have harrival := resolveSlot_timeout_arrival hdone'
  have hrecords := resolveSlot_timeout_records hdone'
  have hfences := resolveSlot_timeout_fences hdone'
  rw [hslot, h.timeBase] at hrecords
  rw [hslot] at hself harrival
  generalize resolveSlot t i .timeout = v at *
  have hrecord : timedRecord s.slots s.entries s.timeBase op = some (slotLoss .timeout s.slots[i] s.timeBase) := by
    rw [timedRecord, hsrc]
    exact if_pos hdone
  have hdrains := drainsOf_append_slot (ops := ops) hsrc
  rw [hout]
  refine ⟨vtime.trans h.timeBase, vactive.trans h.active, fun j => ?_, (ventries.trans h.entries).trans ?_,
    fun e he hd => ?_, fun a => (lineList_congr vlines a).trans (h.lists a), fun e he => ?_,
    fun a ha => (findLine_congr vlines a).trans (h.lines a (hdrains ▸ ha)), ?_, ?_, fun k => ?_⟩
  · show v.slots[j] = _
    by_cases hj : j = i
    · subst hj
      rw [timedSlot_append_posted hsrc hdone]
      exact hself
    · rw [timedSlot_append_slot_ne hsrc hj, ← h.slots]
      exact hothers j hj
  · rw [drainedEntries, drainedEntries, hdrains]
  · show v.entries[e] = _
    rw [ventries]
    exact h.draining e (hdrains ▸ he) hd
  · have hfind : findLine v s.entries[e].line = findLine t s.entries[e].line := findLine_congr vlines _
    show (findLine v s.entries[e].line).bind _ = _
    rw [hfind]
    exact h.refs e (hdrains ▸ he)
  · have hleaves := leavesStore_append_posted (ops := ops) hsrc hdone
    show v.arrival = _
    rw [harrival, h.arrival]
    split
    · next hd =>
      rw [without, List.filter_filter]
      exact List.filter_congr fun j _ => by rw [hleaves, hd, Bool.and_true, Bool.not_or, Bool.and_comm, bne]
    · next hd =>
      exact List.filter_congr fun j _ => by rw [hleaves, eq_false_of_ne_true hd, Bool.and_false, Bool.or_false]
  · rw [List.filterMap_append, List.filterMap_cons_some hrecord, List.filterMap_nil]
    exact RecordsHanded.congr (RecordsHanded.trans h.records hrecords) rfl rfl rfl rfl
  · show v.fences[k] = _
    rw [timedFence_append_posted hsrc hdone hfirst, ← h.fences, ← hslot]
    exact hfences k

/-- The timeout of a further op, an entry's drain. -/
theorem TimedOut.drained (h : TimedOut s ops t) {e : EntryId} (hsrc : op.source = .entry e)
    (hstate : s.entries[e].state = .draining) (hfirst : e ∉ drainsOf ops)
    (hwaits : ∀ i ∈ s.entries[e].waiting, opEnds ops i = false)
    (hline : ∀ d ∈ drainsOf ops, s.entries[d].line ≠ s.entries[e].line) (hnodup : (t.lines.map (·.line)).Nodup) :
    TimedOut s (ops ++ [op]) (timeOut t τ op) := by
  have hentry : t.entries[e] = s.entries[e] := h.draining e hfirst hstate
  have hout : timeOut t τ op =
      raiseMemTimeout (countTimeout (setTag (resolveEntry t e .timeout) τ .quarantined)) := by
    rw [timeOut, hsrc, resolveSource]
  have hframe : (resolveEntry t e .timeout).timeBase = t.timeBase ∧ (resolveEntry t e .timeout).active = t.active ∧
      (resolveEntry t e .timeout).arrival = t.arrival := by simp
  obtain ⟨vtime, vactive, varrival⟩ := hframe
  obtain ⟨href, hother, hlists⟩ := resolveEntry_findLine t e .timeout
  have hentries := resolveEntry_entries t e .timeout
  have hslots := resolveEntry_slots t e .timeout
  have hrecords := resolveEntry_timeout_records t e
  have hfences := resolveEntry_timeout_fences t e
  rw [hentry] at href hother
  rw [hentry, h.timeBase] at hrecords
  generalize resolveEntry t e .timeout = v at *
  have hrecord : timedRecord s.slots s.entries s.timeBase op = some (entryLoss .timeout s.entries[e] s.timeBase) := by
    rw [timedRecord, hsrc]
  have hdrains := drainsOf_append_entry (ops := ops) hsrc
  have hmem (d : EntryId) : d ∈ drainsOf (ops ++ [op]) ↔ d ∈ drainsOf ops ∨ d = e := by
    rw [hdrains, List.mem_append, List.mem_singleton]
  rw [hout]
  refine ⟨vtime.trans h.timeBase, vactive.trans h.active, fun j => ?_, ?_, fun d hd hdraining => ?_,
    fun a => (hlists hnodup a).trans (h.lists a), fun d hd => ?_, fun a ha => ?_, ?_, ?_, fun k => ?_⟩
  · show v.slots[j] = _
    rw [timedSlot_append_entry hsrc (hwaits j), ← h.slots, ← hentry]
    exact hslots j
  · show v.entries = _
    rw [hentries, h.timeBase, h.active, h.entries, drainedEntries, drainedEntries, hdrains, List.foldl_append]
    rfl
  · show v.entries[d] = _
    rw [hmem, not_or] at hd
    have hsame := h.draining d hd.1 hdraining
    have hput : (put t.entries e MergeEntry.free)[d] = s.entries[d] := (get_put_ne _ _ hd.2).trans hsame
    rw [hentries, pressured_not_opened _ _ (by rw [hput, hdraining]; nofun), hput]
  · rcases (hmem d).1 hd with hd | rfl
    · have hfind : findLine v s.entries[d].line = findLine t s.entries[d].line := hother _ (hline d hd)
      show (findLine v s.entries[d].line).bind _ = _
      rw [hfind]
      exact h.refs d hd
    · exact href
  · have hne : a ≠ s.entries[e].line := fun hae => ha e ((hmem e).2 (.inr rfl)) hae.symm
    exact (hother a hne).trans (h.lines a fun d hd => ha d ((hmem d).2 (.inl hd)))
  · rw [leavesStore_append_entry hsrc]
    exact varrival.trans h.arrival
  · rw [List.filterMap_append, List.filterMap_cons_some hrecord, List.filterMap_nil]
    exact RecordsHanded.congr (RecordsHanded.trans h.records hrecords) rfl rfl rfl rfl
  · show v.fences[k] = _
    have hstep := hfences k
    simp only [h.fences k, hentry] at hstep
    exact hstep.trans (timedFence_append_entry hsrc hfirst s.fences[k]).symm

end

/-! ## Every op that is due times out (R136) -/

theorem mem_dueOps {s : State} {τs : List TagId} {op : OutstandingOp} (h : op ∈ dueOps s τs) :
    ∃ τ ∈ τs, s.tags[τ] = .outstanding op := by
  obtain ⟨τ, hτ, hdue⟩ := List.mem_filterMap.1 h
  obtain ⟨htag, -⟩ := dueOp_eq_some.1 hdue
  exact ⟨τ, hτ, htag⟩

/-- A slot whose op is among those of other tags holds another tag (R129). -/
theorem opEnds_dueOps {s : State} (ho : OpLaw s) {τs : List TagId} {i : SlotId}
    (h : ∀ τ ∈ τs, s.slots[i].memTag = some τ → s.slots[i].state ≠ .issued ∧ s.slots[i].state ≠ .done) :
    opEnds (dueOps s τs) i = false := by
  refine eq_false_of_ne_true fun hends => ?_
  obtain ⟨op, hop, hsrc⟩ := opEnds_iff.1 hends
  obtain ⟨τ, hτ, htag⟩ := mem_dueOps hop
  obtain ⟨hheld, hstate⟩ := ho τ op i htag hsrc
  obtain ⟨hissued, hdone⟩ := h τ hτ hheld
  exact hstate.elim hissued hdone

theorem TimedOut.step {s t : State} {τs : List TagId} {τ : TagId} {op : OutstandingOp} (ho : OpLaw s) (hw : WaitLaw s)
    (hm : MergeLaw s) (h : TimedOut s (dueOps s τs) t) (hnodup : (t.lines.map (·.line)).Nodup) (hτ : τ ∉ τs)
    (htag : s.tags[τ] = .outstanding op) : TimedOut s (dueOps s τs ++ [op]) (timeOut t τ op) := by
  obtain ⟨law, hdrainOps⟩ := mergeLaw_iff.1 hm
  cases hsrc : op.source with
  | slot i =>
    obtain ⟨hheld, hstate⟩ := ho τ op i htag hsrc
    have hfirst : opEnds (dueOps s τs) i = false := opEnds_dueOps ho fun σ hσ hheld' =>
      absurd (Option.some.inj (hheld'.symm.trans hheld) ▸ hσ) hτ
    have hslot : t.slots[i] = s.slots[i] := h.slot hfirst fun e he => by
      obtain ⟨hwait, -⟩ := hw e i he
      rw [hwait] at hstate
      exact hstate.elim nofun nofun
    exact hstate.elim (h.issued hsrc hslot) fun hdone => h.posted hsrc hslot hdone hfirst
  | entry e =>
    obtain ⟨hdraining, hheld⟩ := hdrainOps τ op e htag hsrc
    have hfirst : e ∉ drainsOf (dueOps s τs) := fun he => by
      obtain ⟨op', hop', hsrc'⟩ := mem_drainsOf.1 he
      obtain ⟨σ, hσ, htag'⟩ := mem_dueOps hop'
      obtain ⟨-, hheld'⟩ := hdrainOps σ op' e htag' hsrc'
      exact hτ (Option.some.inj (hheld'.symm.trans hheld) ▸ hσ)
    refine h.drained hsrc hdraining hfirst (fun i hi => opEnds_dueOps ho fun _ _ _ => ?_) (fun d hd hline => ?_) hnodup
    · obtain ⟨hwait, -⟩ := hw e i hi
      rw [hwait]
      exact ⟨nofun, nofun⟩
    · obtain ⟨op', hop', hsrc'⟩ := mem_drainsOf.1 hd
      obtain ⟨σ, -, htag'⟩ := mem_dueOps hop'
      obtain ⟨hdraining', -⟩ := hdrainOps σ op' d htag' hsrc'
      have href := (law.refs s.entries[d].line d).2 ⟨by rw [hdraining']; nofun, rfl⟩
      have href' := (law.refs s.entries[e].line e).2 ⟨by rw [hdraining]; nofun, rfl⟩
      rw [hline, href', Option.some.injEq] at href
      exact hfirst (href ▸ hd)

theorem foldl_judgeTimeout_timedOut {s : State} (ho : OpLaw s) (hw : WaitLaw s) (hm : MergeLaw s) {τs : List TagId}
    (h : τs.Nodup) : TimedOut s (dueOps s τs) (τs.foldl judgeTimeout s) ∧ MergeLaw (τs.foldl judgeTimeout s) := by
  induction τs using List.reverseRecOn with
  | nil => exact ⟨.nil s, hm⟩
  | append_singleton τs τ ih =>
    obtain ⟨hτs, -, hdisjoint⟩ := List.nodup_append.1 h
    obtain ⟨htimed, hlaw⟩ := ih hτs
    have hτ : τ ∉ τs := fun hmem => hdisjoint τ hmem τ (List.mem_singleton_self τ) rfl
    have hdue := (foldl_judgeTimeout_counted s hτs).due_eq hτ
    rw [List.foldl_append]
    refine ⟨?_, judgeTimeout_mergeLaw hlaw τ⟩
    rw [List.foldl_cons, List.foldl_nil]
    cases hd : dueOp s τ with
    | none =>
      rw [judgeTimeout_stays (hdue.trans hd), dueOps_append_none hd]
      exact htimed
    | some op =>
      obtain ⟨htag, -⟩ := dueOp_eq_some.1 hd
      rw [judgeTimeout_due (hdue.trans hd), dueOps_append_some hd]
      exact htimed.step ho hw hm hlaw.1 hτ htag

/-! ## The end of an event whose ops have timed out (R15, R136) -/

/-- What the judgements before the timeouts leave of the state in which the event began. -/
structure JudgedBefore (s u : State) : Prop where
  part : u.part = s.part
  states : ∀ i : SlotId, u.slots[i].state = s.slots[i].state
  arrival : u.arrival = s.arrival
  lines : u.lines = s.lines
  pointer : u.pointer = s.pointer
  fences : u.fences = s.fences
  fenceOrder : u.fenceOrder = s.fenceOrder
  faults : u.faults = s.faults
  overflow : u.overflow = s.overflow
  responses : u.responses = s.responses
  active : u.active = s.active
  causes : u.causes = s.causes
  timeouts : u.counters.timeouts = s.counters.timeouts

/-- What the timeouts reach in none of the blocks that the end of an event reads. -/
structure TimeoutsReach (u v : State) : Prop where
  part : v.part = u.part
  pointer : v.pointer = u.pointer
  fenceOrder : v.fenceOrder = u.fenceOrder
  responses : v.responses = u.responses
  balances : v.balances = u.balances

theorem RecordsHanded.from {s s' t : State} {rs : List FaultRecord} (h : RecordsHanded s t rs)
    (faults : s.faults = s'.faults) (overflow : s.overflow = s'.overflow) (causes : s.causes = s'.causes) :
    RecordsHanded s' t rs := by
  unfold RecordsHanded at h ⊢
  rw [faults, overflow, causes] at h
  exact h

/-- A freed slot is no newly DONE one, so the references are those of the slots in the list that the event began with. -/
theorem TimedOut.filter_newlyDone {s u v : State} {ops : List OutstandingOp} (h : TimedOut u ops v) (hs : JudgedBefore s u) :
    v.arrival.filter (newlyDone s v) =
      s.arrival.filter (fun i => v.slots[i].state == .done && s.slots[i].state != .done) := by
  rw [h.arrival, hs.arrival, List.filter_filter]
  refine List.filter_congr fun i _ => ?_
  cases hl : leavesStore ops u.slots i with
  | false => exact Bool.and_true _
  | true =>
    obtain ⟨hposted, hdelivered⟩ := Bool.and_eq_true_iff.1 hl
    have hstate : v.slots[i].state = .free := by
      rw [h.slots, timedSlot, if_pos hposted, hdelivered]
      rfl
    rw [newlyDone, hstate]
    rfl

theorem timedFence_leaves (ops : List OutstandingOp) (slots : Vector Slot 48) (entries : Vector MergeEntry 16)
    (f : FenceRecord) :
    let lost : Prop := (∃ i ∈ f.waitSlots, losesPost ops slots i = true) ∨
      ∃ e ∈ f.waitEntries, e ∈ drainsOf ops ∧ entries[e].contributors[f.initiator] = some .posted
    ∃ g : FenceRecord,
      (g = { f with faulted := g.faulted } ∧ (g.faulted = true ↔ f.faulted = true ∨ (f.state = .waiting ∧ lost))) ∧
      LeavesWaitSets (fun f => (∃ i ∈ f.waitSlots, leavesStore ops slots i = true) ∨
          ∃ e ∈ f.waitEntries, e ∈ drainsOf ops)
        (fun f => { f with
          waitSlots := f.waitSlots.filter (fun i => !leavesStore ops slots i)
          waitEntries := f.waitEntries.filter (fun e => !(drainsOf ops).contains e) })
        g (timedFence ops slots entries f) := by
  intro lost
  have hlost : fenceLoses ops slots entries f = true ↔ lost := by
    simp only [fenceLoses, Bool.or_eq_true, List.any_eq_true, Bool.and_eq_true, List.contains_iff_mem, isPosted_iff, lost]
  by_cases hw : f.state = .waiting
  · refine ⟨{ f with faulted := f.faulted || fenceLoses ops slots entries f }, ⟨rfl, ?_⟩, ?_⟩
    · rw [Bool.or_eq_true, hlost]
      exact or_congr_right (and_iff_right hw).symm
    · rw [timedFence_waiting hw]
      have hleaves := fenceAfter_leaves (lost := fenceLoses ops slots entries f) (gone := leavesStore ops slots)
        (drained := (drainsOf ops).contains) hw
      simp only [List.contains_iff_mem] at hleaves
      exact hleaves
  · refine ⟨f, ⟨rfl, ⟨.inl, fun h => h.elim id fun h => absurd h.1 hw⟩⟩, ?_⟩
    rw [timedFence_settled hw]
    exact ⟨fun h => absurd h hw, fun _ => rfl⟩

/-- The record of an op of the list, as the statements name it by what the list loses. -/
def lostRecord (ops : List OutstandingOp) (slots : Vector Slot 48) (entries : Vector MergeEntry 16) (now : Time)
    (op : OutstandingOp) : Option FaultRecord :=
  match op.source with
  | .slot i => if losesPost ops slots i then some (slotLoss .timeout slots[i] now) else none
  | .entry e => some (entryLoss .timeout entries[e] now)

theorem filterMap_lostRecord (ops : List OutstandingOp) (slots : Vector Slot 48) (entries : Vector MergeEntry 16)
    (now : Time) : ops.filterMap (lostRecord ops slots entries now) = ops.filterMap (timedRecord slots entries now) :=
  List.filterMap_congr fun op hop => by
    unfold lostRecord timedRecord
    cases hsrc : op.source with
    | slot i =>
      have hends : opEnds ops i = true := opEnds_iff.2 ⟨op, hop, hsrc⟩
      simp only [losesPost, hends, Bool.true_and, beq_iff_eq]
    | entry e => rfl

theorem timeoutsTaken_conclude {s u v : State} {τs : List TagId} (hs : JudgedBefore s u)
    (h : TimedOut u (dueOps u τs) v) (hc : TimeoutsCounted u τs v) (hr : TimeoutsReach u v) :
    TimeoutsTaken (dueOps u τs) u.timeBase u.slots u.entries u.balances s (conclude s v) := by
  have hfind (a : LineAddr) : findLine (conclude s v) a = findLine v a := by simp only [findLine, conclude_frame]
  have hlines (a : LineAddr) : findLine u a = findLine s a := findLine_congr hs.lines a
  obtain ⟨fr, fo, hcauses⟩ := hc.causes
  obtain ⟨p, q, b, dr, rs, hfields⟩ := conclude_fields s v
  refine ⟨fun i => ?_, ?_, fun e he => ⟨?_, ?_⟩, fun a ha => ?_, ?_, ?_, fun k => ?_, ?_, ?_, ?_, ?_, ?_⟩
  · rw [hfields]
    exact h.slots i
  · rw [hfields]
    dsimp only
    rw [h.active]
    exact h.entries
  · rw [mergeRef, hfind]
    exact h.refs e he
  · rw [lineList_eq_of_findLine (hfind _), h.lists, lineList_eq_of_findLine (hlines _)]
  · rw [hfind, h.lines a ha, hlines]
  · rw [hfields]
    exact h.arrival.trans (by rw [hs.arrival]; rfl)
  · have hrecords : RecordsHanded s (conclude s v)
        ((dueOps u τs).filterMap (timedRecord u.slots u.entries u.timeBase)) := by
      rw [hfields]
      exact RecordsHanded.congr (RecordsHanded.from h.records hs.faults hs.overflow hs.causes) rfl rfl rfl rfl
    rw [← filterMap_lostRecord] at hrecords
    exact hrecords
  · have hfence : (conclude s v).fences[k] = timedFence (dueOps u τs) u.slots u.entries s.fences[k] := by
      rw [hfields]
      dsimp only
      rw [h.fences, hs.fences]
    obtain ⟨g, hmarked, hleaves⟩ := timedFence_leaves (dueOps u τs) u.slots u.entries s.fences[k]
    refine ⟨g, hmarked, ?_⟩
    rw [hfence]
    exact hleaves
  · have hfences : (v.fenceOrder.filter (newlyCompleted s v)).map Ref.fence = fencesCompleted s (conclude s v) := by
      rw [fencesCompleted_conclude, hr.fenceOrder, hs.fenceOrder]
      rfl
    rw [conclude_responses, readyRefs, hfences, h.filter_newlyDone hs, hr.responses, hs.responses, ← List.append_assoc]
    simp only [conclude_frame]
  · rw [hfields]
    dsimp only
    rw [hc.counters, ← hs.timeouts]
  · rw [hfields, ← hs.causes]
    dsimp only
    rw [hcauses]
  · rw [hfields, ← hs.causes]
    dsimp only
    rw [hcauses]
  · rw [← hr.balances]
    refine conclude_partFollows_of_causes (hr.part.trans hs.part) (hr.pointer.trans hs.pointer) ?_ ?_
      (h.active.trans hs.active)
    · rw [hcauses, hs.causes]
    · rw [hcauses, hs.causes]

/-! ## The response timeout of one op (R136) -/

theorem JudgedBefore.refl (s : State) : JudgedBefore s s :=
  ⟨rfl, fun _ => rfl, rfl, rfl, rfl, rfl, rfl, rfl, rfl, rfl, rfl, rfl, rfl⟩

/-- An event that changes nothing, with an op OUTSTANDING, ends as it began. -/
theorem conclude_self {s : State} {τ : TagId} {op : OutstandingOp} (h : s.tags[τ] = .outstanding op) :
    conclude s s = s := by
  have hpublish : publish s s = s := by
    have hsame : publish s s = setResponses s (s.responses ++ readyRefs s s) := rfl
    rw [hsame, readyRefs_of_fences rfl rfl, List.append_nil]
    rfl
  rw [conclude, hpublish, judgeEmpty_held]
  rintro ⟨-, -, -, htags, -⟩
  exact htags τ op h

theorem timeOut_reach (s : State) (τ : TagId) (op : OutstandingOp) : TimeoutsReach s (timeOut s τ op) :=
  ⟨by simp [timeOut], by simp [timeOut], by simp [timeOut], by simp [timeOut], by simp [timeOut]⟩

/-- The records of an op's timeout are those that the end of its source hands. -/
theorem recordsHanded_timeOut {s : State} {op : OutstandingOp} {rs : List FaultRecord}
    (h : RecordsHanded s (resolveSource s op.source .timeout) rs) (τ : TagId) :
    RecordsHanded s (conclude s (timeOut s τ op)) rs := by
  obtain ⟨p, q, b, dr, rs', hfields⟩ := conclude_fields s (timeOut s τ op)
  rw [hfields]
  exact RecordsHanded.congr h rfl rfl rfl rfl

/-- The end of the event reaches neither the slots, the entries nor the fences that the timeout leaves. -/
theorem conclude_timeOut (s : State) (τ : TagId) (op : OutstandingOp) :
    (conclude s (timeOut s τ op)).slots = (resolveSource s op.source .timeout).slots ∧
    (conclude s (timeOut s τ op)).entries = (resolveSource s op.source .timeout).entries ∧
    (conclude s (timeOut s τ op)).fences = (resolveSource s op.source .timeout).fences := by
  obtain ⟨p, q, b, dr, rs, hfields⟩ := conclude_fields s (timeOut s τ op)
  rw [hfields]
  exact ⟨rfl, rfl, rfl⟩

/-- Settles O42: one op's timeout is the judgement of one tag, and the whole resolution that of a list of one op. -/
theorem responseTimeoutIsTaken : Obligations.ResponseTimeoutIsTaken := by
  intro s τ op hr htag
  have hexec : exec (.responseTimeout τ) s = .next (conclude s (judgeTimeout s τ)) := exec_released hr
  refine ⟨fun hbelow => ?_, fun hdue => ?_⟩
  · have hnone : dueOp s τ = none := by
      cases hd : dueOp s τ with
      | none => rfl
      | some op' =>
        obtain ⟨htag', hdue⟩ := dueOp_eq_some.1 hd
        rw [htag, TagRecord.outstanding.injEq] at htag'
        exact absurd (htag' ▸ hdue) (Nat.not_le.2 hbelow)
    rw [hexec, judgeTimeout_stays hnone, conclude_self htag]
  · have hsome : dueOp s τ = some op := dueOp_eq_some.2 ⟨htag, hdue⟩
    have hjudged : judgeTimeout s τ = timeOut s τ op := judgeTimeout_due hsome
    obtain ⟨hslots, hentries, hfences⟩ := conclude_timeOut s τ op
    refine ⟨_, hexec, ?_⟩
    rw [hjudged]
    refine ⟨?_, ?_, ?_, fun i hsrc hissued => ?_, fun i hsrc hdone => ?_, fun e hsrc => ?_, fun hm hl => ?_, ?_⟩
    · simp only [conclude_frame]
      exact timeOut_tags s τ op
    · simp only [conclude_frame]
      exact timeOut_counters s τ op
    · obtain ⟨p, q, b, dr, rs, hfields⟩ := conclude_fields s (timeOut s τ op)
      rw [hfields]
      rfl
    · have hsource : resolveSource s op.source .timeout = setSlot s i (abandonedSlot s.slots[i]) := by
        rw [hsrc, resolveSource, resolveSlot_timeout_issued hissued]
      rw [hsource] at hslots hfences
      refine ⟨recordsHanded_timeOut ?_ τ, hfences, ?_⟩
      · rw [hsource]
        exact recordsHanded_nil rfl rfl rfl rfl
      · rw [hslots]
        exact get_put_self ..
    · have hsource : resolveSource s op.source .timeout = resolveSlot s i .timeout := by rw [hsrc, resolveSource]
      refine ⟨?_, recordsHanded_timeOut ?_ τ⟩
      · rw [hslots, hsource, resolveSlot_timeout_slots hdone]
      · rw [hsource]
        exact resolveSlot_timeout_records hdone
    · have hsource : resolveSource s op.source .timeout = resolveEntry s e .timeout := by rw [hsrc, resolveSource]
      refine ⟨?_, fun i hi => ?_, recordsHanded_timeOut ?_ τ⟩
      · have hput : (put s.entries e MergeEntry.free)[e] = MergeEntry.free := get_put_self ..
        rw [hentries, hsource, resolveEntry_entries, pressured_not_opened _ _ (by rw [hput]; nofun), hput]
      · rw [hslots, hsource, resolveEntry_slots, if_pos hi]
        exact ⟨rfl, rfl⟩
      · rw [hsource]
        exact resolveEntry_timeout_records s e
    · obtain ⟨-, hops, hwaits⟩ := storeLaw_iff.1 hl
      have hlist : dueOps s [τ] = [op] := by rw [dueOps, List.filterMap_cons_some hsome, List.filterMap_nil]
      have hnodup : [τ].Nodup := List.nodup_singleton τ
      have hfold : [τ].foldl judgeTimeout s = timeOut s τ op := hjudged
      obtain ⟨htimed, -⟩ := foldl_judgeTimeout_timedOut hops hwaits hm hnodup
      have hcounted := foldl_judgeTimeout_counted s hnodup
      rw [hfold] at htimed hcounted
      rw [← hlist]
      exact timeoutsTaken_conclude (.refl s) htimed hcounted (timeOut_reach s τ op)
    · exact state_ext (by simp [timeOut])

/-! ## The urgency flags judged together (R110, R111) -/

theorem urgentNow_iff {s : State} {k : ClassId} : urgentNow s k = true ↔ s.active.classes[k].latencyLimit ≠ 0 ∧
    ∃ i rest, s.queues[k] = i :: rest ∧ s.active.classes[k].latencyLimit.toNat ≤ s.slots[i].age := by
  have hzero : s.active.classes[k].latencyLimit.toNat ≠ 0 ↔ s.active.classes[k].latencyLimit ≠ 0 :=
    not_congr ⟨fun h => BitVec.eq_of_toNat_eq h, fun h => by rw [h]; rfl⟩
  unfold urgentNow
  cases hq : s.queues[k] with
  | nil => exact ⟨nofun, fun ⟨_, _, _, h, _⟩ => nomatch h⟩
  | cons i rest =>
    rw [Bool.and_eq_true, bne_iff_ne, decide_eq_true_eq, ← hzero]
    refine and_congr_right fun _ => ⟨fun h => ⟨i, rest, rfl, h⟩, ?_⟩
    rintro ⟨_, _, ⟨⟩, h⟩
    exact h

/-- The flags of the classes `ks` have been judged since `s`. -/
structure UrgencyJudged (s : State) (ks : List ClassId) (t : State) : Prop where
  queues : t.queues = s.queues
  slots : t.slots = s.slots
  active : t.active = s.active
  urgent : ∀ k : ClassId, t.urgent[k] = if k ∈ ks then urgentNow s k else s.urgent[k]
  perClass : ∀ k : ClassId, t.counters.perClass[k] = { s.counters.perClass[k] with
    urgentEpisodes := satAdd s.counters.perClass[k].urgentEpisodes (if t.urgent[k] && !s.urgent[k] then 1 else 0) }
  counters : t.counters = { s.counters with perClass := t.counters.perClass }

theorem UrgencyJudged.nil (s : State) : UrgencyJudged s [] s where
  queues := rfl
  slots := rfl
  active := rfl
  urgent _ := rfl
  perClass k := by rw [Bool.and_not_self, if_neg Bool.false_ne_true, satAdd_zero]
  counters := rfl

theorem UrgencyJudged.step {s t : State} {ks : List ClassId} {k : ClassId} (h : UrgencyJudged s ks t) (hk : k ∉ ks) :
    UrgencyJudged s (ks ++ [k]) (judgeUrgency t k) := by
  obtain ⟨hurgent, -⟩ := judgeUrgency_spec t k
  have hnow : urgentNow t k = urgentNow s k := urgentNow_congr h.queues h.slots h.active k
  have hold : t.urgent[k] = s.urgent[k] := by rw [h.urgent, if_neg hk]
  have hflag (j : ClassId) : (judgeUrgency t k).urgent[j] = if j = k then urgentNow s k else t.urgent[j] := by
    rw [hurgent, get_put, hnow]
  refine ⟨?_, ?_, ?_, fun j => ?_, fun j => ?_, ?_⟩
  · rw [← h.queues]
    simp
  · rw [← h.slots]
    simp
  · rw [← h.active]
    simp
  · rw [hflag, h.urgent]
    by_cases hj : j = k
    · subst hj
      rw [if_pos rfl, if_pos (List.mem_append_right _ (List.mem_singleton_self _))]
    · simp only [hj, if_false, List.mem_append, List.mem_singleton, or_false]
  · rw [judgeUrgency_episodes, h.perClass, hflag]
    by_cases hj : j = k
    · subst hj
      rw [hold, hnow, Bool.and_not_self, if_neg Bool.false_ne_true, satAdd_zero, if_pos rfl]
      cases urgentNow s j <;> cases s.urgent[j] <;> simp
    · simp only [hj, false_and, if_false, satAdd_zero]
  · rw [judgeUrgency_counters, h.counters]

theorem judgeAllUrgency_judged (s : State) : UrgencyJudged s (List.finRange 6) (judgeAllUrgency s) := by
  have hfold (ks : List ClassId) : ks.Nodup → UrgencyJudged s ks (ks.foldl judgeUrgency s) := by
    induction ks using List.reverseRecOn with
    | nil => exact fun _ => .nil s
    | append_singleton ks k ih =>
      intro h
      obtain ⟨hks, -, hdisjoint⟩ := List.nodup_append.1 h
      rw [List.foldl_append]
      exact (ih hks).step fun hm => hdisjoint k hm k (List.mem_singleton_self k) rfl
  exact hfold _ (List.nodup_finRange 6)

/-! ## AGED judged for every entry (R93) -/

theorem judgeAllAged_eq (s : State) :
    judgeAllAged s = setEntries s (agedEntries s.active.holdLimit.toNat s.timeBase s.entries) :=
  forEach_setEntry (fun m => if s.active.holdLimit.toNat ≤ ageOf s.timeBase m.firstMerge
    then withReason m .aged s.timeBase else m) fun x e => by
      have hsame : setEntries s x = setEntry (setEntries s x) e x[e] := by
        rw [setEntry, setEntries_entries, put_get]
        rfl
      have haged : entryAged (setEntries s x) e =
          decide (s.active.holdLimit.toNat ≤ ageOf s.timeBase x[e].firstMerge) := rfl
      rw [judgeAged, haged]
      by_cases h : s.active.holdLimit.toNat ≤ ageOf s.timeBase x[e].firstMerge
      · rw [if_pos (decide_eq_true h), if_pos h]
        rfl
      · rw [if_neg (by simpa using h), if_neg h]
        exact hsame

/-- An entry that takes reasons and is at or beyond the limit holds AGED. -/
theorem mem_agedEntries {limit : Nat} {now : Time} {es : Vector MergeEntry 16} {e : EntryId}
    (hlive : entryLive (agedEntries limit now es)[e] = true)
    (hage : limit ≤ ageOf now (agedEntries limit now es)[e].firstMerge) :
    Reason.aged ∈ (agedEntries limit now es)[e].reasons := by
  have hfirst : (agedEntries limit now es)[e].firstMerge = es[e].firstMerge := by
    rw [agedEntries, get_tabulate]
    split
    · rw [withReason_frame]
    · rfl
  rw [hfirst] at hage
  have hself : (agedEntries limit now es)[e] = withReason es[e] .aged now := by
    rw [agedEntries, get_tabulate, if_pos hage]
  rw [hself] at hlive ⊢
  cases hbefore : entryLive es[e] with
  | true => exact (mem_withReason hbefore .aged .aged now).2 (.inl rfl)
  | false =>
    rw [withReason_other hbefore, hbefore] at hlive
    cases hlive

/-! ## The judgements of a step (R195) -/

/-- A step once time has advanced and the refill period, the urgency flags and AGED have been judged, before the
timeouts. -/
def agedJudged (s : State) : State := judgeAllAged (judgeAllUrgency (judgeRefill (advanceTime s)))

theorem timeJudged_eq (s : State) : timeJudged s = judgeAllTimeouts (agedJudged s) := rfl

theorem agedJudged_frame (s : State) :
    (agedJudged s).part = s.part ∧ (agedJudged s).arrival = s.arrival ∧ (agedJudged s).lines = s.lines ∧
    (agedJudged s).queues = s.queues ∧ (agedJudged s).pointer = s.pointer ∧ (agedJudged s).fences = s.fences ∧
    (agedJudged s).fenceOrder = s.fenceOrder ∧ (agedJudged s).faults = s.faults ∧
    (agedJudged s).overflow = s.overflow ∧ (agedJudged s).responses = s.responses ∧
    (agedJudged s).active = s.active ∧ (agedJudged s).causes = s.causes ∧ (agedJudged s).tags = s.tags ∧
    (agedJudged s).timeBase = s.timeBase + 1 := by
  have htime : (advanceTime s).timeBase = s.timeBase + 1 := rfl
  simp [agedJudged, htime]

theorem agedJudged_slots (s : State) : (agedJudged s).slots = tabulate (fun i => { s.slots[i] with
    age := if s.slots[i].state = .free then s.slots[i].age else min (s.slots[i].age + 1) 65535 }) := by
  simp only [agedJudged, judgeAllAged_frame, judgeAllUrgency_frame, judgeRefill_frame, advanceTime_spec]
  refine vector_ext fun i => ?_
  rw [get_tabulate, get_tabulate, agedSlot_eq, agedSlot_age]

theorem agedJudged_entries (s : State) : (agedJudged s).entries =
    agedEntries s.active.holdLimit.toNat (s.timeBase + 1) s.entries := by
  have hbefore : (judgeAllUrgency (judgeRefill (advanceTime s))).active = s.active ∧
      (judgeAllUrgency (judgeRefill (advanceTime s))).timeBase = s.timeBase + 1 ∧
      (judgeAllUrgency (judgeRefill (advanceTime s))).entries = s.entries := by
    have htime : (advanceTime s).timeBase = s.timeBase + 1 := rfl
    simp [htime]
  obtain ⟨hactive, htime, hentries⟩ := hbefore
  rw [agedJudged, judgeAllAged_eq, setEntries_entries, hactive, htime, hentries]

theorem agedJudged_balances (s : State) : (agedJudged s).balances =
    tabulate (fun k => if s.active.refillPeriod.toNat ≤ s.refillCount + 1
      then refilledBalance s.active k s.balances[k] else s.balances[k]) := by
  obtain ⟨hdue, hstays⟩ := judgeRefill_advanceTime s
  simp only [agedJudged, judgeAllAged_frame, judgeAllUrgency_frame]
  refine vector_ext fun k => ?_
  rw [get_tabulate]
  by_cases h : s.active.refillPeriod.toNat ≤ s.refillCount + 1
  · rw [if_pos h, hdue h, ← refilled_eq]
    exact get_tabulate _ k
  · rw [if_neg h, hstays h]
    simp only [advanceTime_frame]

theorem agedJudged_judgedBefore (s : State) : JudgedBefore s (agedJudged s) := by
  obtain ⟨hpart, harrival, hlines, -, hpointer, hfences, horder, hfaults, hoverflow, hresponses, hactive, hcauses, -⟩ :=
    agedJudged_frame s
  refine ⟨hpart, fun i => ?_, harrival, hlines, hpointer, hfences, horder, hfaults, hoverflow, hresponses, hactive,
    hcauses, ?_⟩
  · rw [agedJudged_slots, get_tabulate]
  · have hcounters := (judgeAllUrgency_judged (judgeRefill (advanceTime s))).counters
    have hsame : (agedJudged s).counters = (judgeAllUrgency (judgeRefill (advanceTime s))).counters := by
      simp only [agedJudged, judgeAllAged_frame]
    rw [hsame, hcounters]
    simp

/-- The laws of ops, confirmations and lines hold before the timeouts. -/
theorem agedJudged_laws {s : State} (hm : MergeLaw s) (hl : StoreLaw s) :
    OpLaw (agedJudged s) ∧ WaitLaw (agedJudged s) ∧ MergeLaw (agedJudged s) := by
  obtain ⟨-, ho, hw⟩ := storeLaw_iff.1 hl
  have hjudge (t : State) : Untouched t (judgeAllAged (judgeAllUrgency (judgeRefill t))) := .of_frame fun e => by
    rw [judgeAllAged_waiting]
    simp only [judgeAllUrgency_frame, judgeRefill_frame]
  have hpassing : Passing s (agedJudged s) := (advanceTime_passing ho hw).andThen (hjudge _)
  have hkept (t : State) : MergeKept t (judgeAllUrgency (judgeRefill t)) := .of_eq
  exact ⟨hpassing.ops, hpassing.waits,
    hm.kept (((advanceTime_mergeKept s).trans (hkept _)).trans (judgeAllAged_mergeKept _))⟩

theorem opsDue_congr {s t : State} (tags : t.tags = s.tags) (limit : Nat) (now : Time) :
    opsDue t limit now = opsDue s limit now := by
  rw [opsDue, opsDue, tags]

theorem dueOps_all (s : State) :
    dueOps s (List.finRange 24) = opsDue s s.active.responseTimeout.toNat s.timeBase := rfl

theorem dueOps_agedJudged (s : State) : dueOps (agedJudged s) (List.finRange 24) =
    opsDue s s.active.responseTimeout.toNat (s.timeBase + 1) := by
  obtain ⟨-, -, -, -, -, -, -, -, -, -, hactive, -, htags, htime⟩ := agedJudged_frame s
  rw [dueOps_all, opsDue_congr htags, hactive, htime]

/-- The urgency flags and the episodes counted are those of the classes as the step finds them (R110, R111). -/
theorem timeJudged_urgent (s : State) (k : ClassId) : (timeJudged s).urgent[k] = true ↔
    s.active.classes[k].latencyLimit ≠ 0 ∧ ∃ i rest, (timeJudged s).queues[k] = i :: rest ∧
      s.active.classes[k].latencyLimit.toNat ≤ (timeJudged s).slots[i].age := by
  have hurgent : (timeJudged s).urgent = (judgeAllUrgency (judgeRefill (advanceTime s))).urgent := by simp [timeJudged]
  have hages (i : SlotId) : (timeJudged s).slots[i].age = (judgeRefill (advanceTime s)).slots[i].age := by
    rw [timeJudged, judgeAllTimeouts_agesStay]
    simp only [judgeAllAged_frame, judgeAllUrgency_frame]
  have hqueues : (judgeRefill (advanceTime s)).queues = (timeJudged s).queues := by simp [timeJudged]
  have hactive : (judgeRefill (advanceTime s)).active = s.active := by simp
  rw [hurgent, (judgeAllUrgency_judged _).urgent, if_pos (List.mem_finRange k), urgentNow_iff, hqueues, hactive]
  simp only [hages]

theorem timeJudged_countsJudged (s : State) :
    CountsJudged s (timeJudged s) (opsDue s s.active.responseTimeout.toNat (s.timeBase + 1)).length := by
  have hjudged := judgeAllUrgency_judged (judgeRefill (advanceTime s))
  have hbefore : (judgeRefill (advanceTime s)).counters = s.counters ∧
      (judgeRefill (advanceTime s)).urgent = s.urgent := by simp
  obtain ⟨hcounters, hflags⟩ := hbefore
  have hsame : (agedJudged s).counters = (judgeAllUrgency (judgeRefill (advanceTime s))).counters := by
    simp only [agedJudged, judgeAllAged_frame]
  have hurgent : (timeJudged s).urgent = (judgeAllUrgency (judgeRefill (advanceTime s))).urgent := by simp [timeJudged]
  have hcount := (judgeAllTimeouts_counted (agedJudged s)).counters
  rw [← timeJudged_eq, dueOps_agedJudged, hsame] at hcount
  have hrest := hjudged.counters
  rw [hcounters] at hrest
  have hclass : (timeJudged s).counters.perClass =
      (judgeAllUrgency (judgeRefill (advanceTime s))).counters.perClass := by rw [hcount]
  refine ⟨fun k => ?_, ?_⟩
  · rw [hclass, hjudged.perClass, hurgent, hcounters, hflags]
  · rw [hclass, hcount, hrest]

/-- Settles O44: each judgement is read off its own pass, and the later passes leave what it set. -/
theorem everyStepIsJudged : Obligations.EveryStepIsJudged := by
  intro s hr now
  have hexec : exec .timeBaseStep s = .next (conclude s (timeJudged s)) := exec_released hr
  obtain ⟨-, -, -, -, -, -, -, -, -, -, hactive, -, htags, htime⟩ := agedJudged_frame s
  have hcounted := judgeAllTimeouts_counted (agedJudged s)
  rw [← timeJudged_eq] at hcounted
  have htag (τ : TagId) : (conclude s (timeJudged s)).tags[τ] =
      if (dueOp (agedJudged s) τ).isSome = true then .quarantined else s.tags[τ] := by
    simp only [conclude_frame]
    rw [hcounted.tags, htags]
    exact if_congr (and_iff_right (List.mem_finRange τ)) rfl rfl
  refine ⟨_, hexec, fun k => ?_, ?_, fun e hlive hage => ?_, fun τ op hop => ?_, fun τ hop => ?_, fun hm hl => ?_⟩
  · simp only [conclude_frame]
    exact timeJudged_urgent s k
  · have hjudged := timeJudged_countsJudged s
    unfold CountsJudged at hjudged ⊢
    simp only [conclude_frame]
    exact hjudged
  · simp only [conclude_frame] at hlive hage ⊢
    obtain ⟨hlive', hfirst, hkeeps⟩ := ((judgeAllTimeouts_entriesStep (agedJudged s)).entry e).live hlive
    have hentries := agedJudged_entries s
    refine hkeeps _ ?_
    rw [timeJudged_eq, hfirst] at hage
    rw [hentries] at hlive' hage ⊢
    exact mem_agedEntries hlive' hage
  · have hdue : (dueOp (agedJudged s) τ).isSome = true ↔
        s.active.responseTimeout.toNat ≤ ageOf now op.issueTime := by
      rw [dueOp, htags, hop, hactive, htime]
      dsimp only
      split
      · next h => exact ⟨fun _ => h, fun _ => rfl⟩
      · next h => exact ⟨nofun, fun h' => absurd h' h⟩
    rw [htag, hop]
    exact if_congr hdue rfl rfl
  · rw [htag, if_neg]
    rw [dueOp, htags]
    cases ht : s.tags[τ] with
    | outstanding op =>
      rw [ht] at hop
      cases hop
    | free | quarantined => exact Bool.false_ne_true
  · obtain ⟨ho, hw, hm'⟩ := agedJudged_laws hm hl
    obtain ⟨htimed, -⟩ := foldl_judgeTimeout_timedOut ho hw hm' (List.nodup_finRange 24)
    have hreach : TimeoutsReach (agedJudged s) (timeJudged s) := by
      rw [timeJudged_eq]
      exact ⟨by simp, by simp, by simp, by simp, by simp⟩
    have htaken := timeoutsTaken_conclude (agedJudged_judgedBefore s) htimed hcounted hreach
    rw [dueOps_agedJudged, agedJudged_slots, agedJudged_entries, agedJudged_balances, htime] at htaken
    exact htaken

end Sys2Proof.Machine

/-! PROOFS. The arbitration of grants and the budgets: validation item by item, the laws of the active set, of the
refill count and of credit balances, and the five categories of the arbiter's choice. -/

namespace Sys2Proof.Machine

-- One proof at a time: elaborated in parallel they need more memory than the check has.
set_option Elab.async false

/-! ## Validation (R181), item by item -/

theorem mem_nameIf {fails : Bool} {x it : StagedItem} : x ∈ nameIf fails it ↔ x = it ∧ fails = true := by
  cases fails <;> simp [nameIf]

theorem above_iff {v : Word} {limit : Nat} : above v limit = true ↔ limit < v.toNat := decide_eq_true_iff

theorem mem_attrFailures {a : WindowAttrs} {item : AttrField → StagedItem} {x : StagedItem} :
    x ∈ attrFailures a item ↔ ∃ f, x = item f ∧ attrFails a f := by
  simp only [attrFailures, List.mem_append, mem_nameIf, above_iff]
  constructor
  · rintro (((((h | h) | h) | h) | h) | h) <;> exact ⟨_, h⟩
  · rintro ⟨f, rfl, hf⟩
    cases f <;> simp [show _ < _ from hf]

theorem foldl_filter_add {α : Type} (p : α → Bool) (f : α → Nat) (l : List α) (t : Nat) :
    (l.filter p).foldl (fun t j => t + f j) t = t + (l.map (fun j => if p j then f j else 0)).sum := by
  induction l generalizing t with
  | nil => simp
  | cons j l ih =>
    cases hj : p j <;> simp [hj, ih, Nat.add_assoc]

theorem runningReservations_eq (c : ConfigSet) (k : ClassId) :
    runningReservations c k = reservedBelow c (k + 1 : Nat) := by
  rw [runningReservations, foldl_filter_add, Nat.zero_add, reservedBelow]
  simp only [decide_eq_true_eq, Fin.le_def, Nat.lt_succ_iff]

theorem reservedBelow_zero (c : ConfigSet) : reservedBelow c 0 = 0 := by simp [reservedBelow]

theorem reservedBelow_mono (c : ConfigSet) {m n : Nat} (h : m ≤ n) : reservedBelow c m ≤ reservedBelow c n := by
  refine List.sum_le_sum fun j _ => ?_
  by_cases hj : j.val < m
  · rw [if_pos hj, if_pos (by omega)]
  · rw [if_neg hj]
    exact Nat.zero_le _

/-- The sum check names the class at which the running sum first exceeds 40 (R181). -/
theorem mem_sumFailures {c : ConfigSet} {x : StagedItem} : x ∈ sumFailures c ↔
    ∃ k : ClassId, x = .cls k .reservation ∧ reservedBelow c k ≤ 40 ∧ 40 < reservedBelow c (k + 1 : Nat) := by
  have hfirst (k : ClassId) :
      firstWhere (fun k => decide (Config.reservationSumLimit < runningReservations c k)) = some k ↔
        reservedBelow c k ≤ 40 ∧ 40 < reservedBelow c (k + 1 : Nat) := by
    simp only [firstWhere_eq_some, decide_eq_true_eq, decide_eq_false_iff_not, not_lt, runningReservations_eq]
    rw [and_comm]
    refine and_congr_left' ⟨fun hlow => ?_, fun hk j hj => (reservedBelow_mono c hj).trans hk⟩
    cases hk : k.val with
    | zero => rw [reservedBelow_zero]; exact Nat.zero_le _
    | succ j => exact hlow ⟨j, by omega⟩ (Fin.lt_def.2 (by simp [hk]))
  simp only [← hfirst, sumFailures]
  split
  · next k hk => simp [hk]
  · next hk => simp [hk]

/-- The items that the failing checks name are those that fail, check by check (R181). -/
theorem mem_failures {c : ConfigSet} {x : StagedItem} : x ∈ failures c ↔ ItemFails c x := by
  simp only [failures, initiatorFailures, windowFailures, classFailures, globalFailures, List.mem_append,
    List.mem_flatMap, List.mem_finRange, true_and, mem_nameIf, mem_attrFailures, mem_sumFailures, Bool.or_eq_true,
    above_iff]
  cases x with
  | windowRange w f => cases f <;> simp [ItemFails]
  | cls k f => cases f <;> simp [ItemFails, reservation, cap, ceiling, refill, latencyLimit, ← and_or_left, or_assoc]
  | _ => simp [ItemFails]

/-- A set with no lowest failing item is valid (R182). -/
theorem lowestFailure_eq_none {c : ConfigSet} (h : lowestFailure c = none) (x : StagedItem) : ¬ ItemFails c x := by
  have hnone : failures c = [] := List.map_eq_nil_iff.1 (List.min?_eq_none_iff.1 h)
  rw [← mem_failures, hnone]
  exact List.not_mem_nil

/-- The active set after a hard reset passes every check (R35, R181). -/
theorem reset_passesValidation (x : StagedItem) : ¬ ItemFails ConfigSet.reset x := by
  cases x with
  | windowRange w f => cases f <;> simp [ItemFails, ConfigSet.reset]
  | windowAttr w f => cases f <;> simp [ItemFails, ConfigSet.reset, attrFails, WindowAttrs.reset]
  | dfltAttr f => cases f <;> simp [ItemFails, ConfigSet.reset, attrFails, WindowAttrs.reset]
  | cls k f =>
    cases f <;> simp [ItemFails, ConfigSet.reset, reservation, cap, ceiling, refill, latencyLimit, reservedBelow]
  | _ => simp [ItemFails, ConfigSet.reset]

/-! ## The active set and the refill count (R104, R106, R177, R181) -/

/-- An event that leaves the active set, the refill count and the period in force leaves the law. -/
theorem ConfigLaw.of_eq {s t : State} (h : ConfigLaw s) (active : t.active = s.active := by simp)
    (count : t.refillCount = s.refillCount := by simp) (period : t.periodInForce = s.periodInForce := by simp) :
    ConfigLaw t := by
  unfold ConfigLaw
  rw [active, count, period]
  exact h

/-- A refill count that has not reached the period in force leaves a refill nothing to expire (R106). -/
theorem judgeRefill_configLaw {s : State} (h : ConfigLaw s) : judgeRefill s = s := by
  obtain ⟨-, hcount, -⟩ := h
  exact (judgeRefill_spec s).2 hcount

/-- The period that a step takes from a valid set is in its range, and the count reaches it in no step that does not
expire it (R106, R107). -/
theorem timeStep_configLaw {s : State} (h : ConfigLaw s) : ConfigLaw (timeStep s) := by
  obtain ⟨hvalid, -, -⟩ := h
  have hrange : ¬ (s.active.refillPeriod.toNat = 0 ∨ 4095 < s.active.refillPeriod.toNat) := hvalid .refillPeriod
  obtain ⟨hdue, hstays⟩ := judgeRefill_advanceTime s
  have hactive : (timeStep s).active = s.active := by simp [timeStep]
  have hperiod : (timeStep s).periodInForce = s.active.refillPeriod := by
    simp only [timeStep, conclude_frame, judgeAllTimeouts_frame, judgeAllAged_frame, judgeAllUrgency_frame,
      judgeRefill_frame]
    rfl
  have hcount : (timeStep s).refillCount = (judgeRefill (advanceTime s)).refillCount := by simp [timeStep]
  unfold ConfigLaw
  rw [hactive, hperiod, hcount]
  refine ⟨hvalid, ?_, by omega⟩
  by_cases hd : s.active.refillPeriod.toNat ≤ s.refillCount + 1
  · rw [hdue hd]
    show 0 < _
    omega
  · rw [hstays hd]
    exact Nat.lt_of_not_le hd

theorem conclude_configLaw {s t : State} (h : ConfigLaw t) : ConfigLaw (conclude s t) := h.of_eq

theorem answerMgmt_configLaw {s : State} (h : ConfigLaw s) (st : MgmtStatus) (v : Word) :
    ConfigLaw (answerMgmt s st v) := h.of_eq

theorem commitJudged_active (s : State) : (commitJudged s).active = s.staged := by
  simp [commitJudged, clampBalances, adoptStaged]

/-- COMMIT makes only a set active that passes every check; the refill count and its period stay (R106, R181). -/
theorem commitPart_configLaw {s : State} (h : ConfigLaw s) : ConfigLaw (commitPart s) := by
  have ⟨_, hcount⟩ := h
  have hvalidate : ConfigLaw (validateAndCommit s) := by
    unfold validateAndCommit
    split
    · exact answerMgmt_configLaw h _ _
    · next hnone =>
      have hjudged : ConfigLaw (commitJudged s) := by
        refine ⟨fun it => ?_, ?_⟩
        · rw [commitJudged_active]
          exact lowestFailure_eq_none hnone it
        · simpa [commitJudged, clampBalances, adoptStaged] using hcount
      exact answerMgmt_configLaw (conclude_configLaw hjudged) _ _
  unfold commitPart
  split
  case h_1 => exact answerMgmt_configLaw h _ _
  all_goals exact hvalidate

theorem afterReset_configLaw (s : State) : ConfigLaw (afterReset s) := by
  have hactive : (afterReset s).active = ConfigSet.reset := rfl
  have hcount : (afterReset s).refillCount = 0 := rfl
  have hperiod : (afterReset s).periodInForce.toNat = 32 := rfl
  unfold ConfigLaw
  rw [hactive, hcount, hperiod]
  exact ⟨reset_passesValidation, by omega, by omega⟩

theorem effect_configLaw (c : Instr) {s : State} (h : ConfigLaw s) : ConfigLaw (effect c s) := by
  cases c with
  | timeBaseStep => exact timeStep_configLaw h
  | refillExpiry => rwa [effect, judgeRefill_configLaw h]
  | commit => exact commitPart_configLaw h
  | hardReset => exact afterReset_configLaw s
  | presentation _ | delivery | grant | drainGrant | completion _ _ _ | hold _ | aged _ | urgentEpisode _
  | responseTimeout _ | resetDeassert | shortFrame | unknownCommand _ | readItem _ | writeItem _ _ | discardStaged
  | drain | resume | restart | takeFault | ackAlert _ | clearCounters | status _ =>
    exact h.of_eq (by simp [effect]) (by simp [effect]) (by simp [effect])

/-- Settles O51: a COMMIT brings a validated set alone, and a step expires the period that it takes. -/
theorem stepKeepsConfigLaw : Obligations.StepKeepsConfigLaw := fun _ _ =>
  step_keeps (fun _ _ h => h.of_eq) fun c _ => effect_configLaw c

/-! ## Credit balances (R107 to R109, R122, R171) -/

/-- What R109 asks of a balance, with the floor of a legal ceiling (R181). -/
def BalanceWithin (c : ConfigSet) (k : ClassId) (b : Int) : Prop := 64 ≤ ceiling c k ∧ -64 ≤ b ∧ b ≤ ceiling c k

theorem creditLaw_iff {s : State} : CreditLaw s ↔ ∀ k : ClassId, BalanceWithin s.active k s.balances[k] := Iff.rfl

/-- An event that leaves the active set and the balances leaves the law. -/
theorem CreditLaw.of_eq {s t : State} (h : CreditLaw s) (active : t.active = s.active := by simp)
    (balances : t.balances = s.balances := by simp) : CreditLaw t := by
  rw [creditLaw_iff, active, balances]
  exact h

/-- Balances that are set each within its limits meet the law. -/
theorem CreditLaw.of_tabulate {t : State} {c : ConfigSet} {f : ClassId → Int} (active : t.active = c)
    (balances : t.balances = tabulate f) (within : ∀ k, BalanceWithin c k (f k)) : CreditLaw t := by
  rw [creditLaw_iff, active, balances]
  intro k
  rw [get_tabulate]
  exact within k

theorem refilled_within {c : ConfigSet} {k : ClassId} {b : Int} (h : BalanceWithin c k b) :
    BalanceWithin c k (refilled c k b) := by
  obtain ⟨hceiling, hfloor, htop⟩ := h
  have hrefill : 0 ≤ refill c k := Int.natCast_nonneg _
  unfold refilled
  split
  · exact ⟨hceiling, by omega, min_le_right _ _⟩
  · exact ⟨hceiling, hfloor, htop⟩

theorem charged_within {c : ConfigSet} {k : ClassId} {b : Int} (h : BalanceWithin c k b) (n : Nat) :
    BalanceWithin c k (charged c k b n) := by
  obtain ⟨hceiling, hfloor, htop⟩ := h
  have hleast : Config.balanceFloor = -64 := rfl
  unfold charged
  split
  · exact ⟨hceiling, by omega, by omega⟩
  · exact ⟨hceiling, hfloor, htop⟩

theorem judgeRefill_creditLaw {s : State} (h : CreditLaw s) : CreditLaw (judgeRefill s) := by
  unfold judgeRefill
  split
  · exact .of_tabulate (c := s.active) rfl rfl fun k => refilled_within (h k)
  · exact h

/-- The end of a restart puts every balance at its ceiling (R171). -/
theorem judgeEmpty_creditLaw {s : State} (h : CreditLaw s) : CreditLaw (judgeEmpty s) := by
  have hrestarted : CreditLaw (completeRestart s) := by
    refine .of_tabulate (c := s.active) rfl rfl fun k => ?_
    obtain ⟨hceiling, -⟩ := h k
    exact ⟨hceiling, by omega, le_refl _⟩
  unfold judgeEmpty
  split
  · split
    · exact h.of_eq
    · exact h
  · split
    · exact hrestarted
    · exact h
  · exact h
  · exact h

theorem conclude_creditLaw {s t : State} (h : CreditLaw t) : CreditLaw (conclude s t) :=
  have hpublished : CreditLaw (publish s t) := h
  judgeEmpty_creditLaw hpublished

theorem answerMgmt_creditLaw {s : State} (h : CreditLaw s) (st : MgmtStatus) (v : Word) :
    CreditLaw (answerMgmt s st v) := h

theorem deliver_creditLaw {s : State} (h : CreditLaw s) : CreditLaw (deliver s) := by
  unfold deliver
  split
  · exact h
  · exact conclude_creditLaw h.of_eq

/-- A grant charges its slot's own class, down to −64 at most (R108). -/
theorem charge_creditLaw {s : State} (h : CreditLaw s) (k : ClassId) (n : Nat) : CreditLaw (charge s k n) := by
  have hbalances : (charge s k n).balances = put s.balances k (charged s.active k s.balances[k] n) := rfl
  have hactive : (charge s k n).active = s.active := rfl
  rw [creditLaw_iff, hbalances, hactive]
  intro j
  rw [get_put]
  split
  · next hj =>
    subst hj
    exact charged_within (h j) n
  · exact h j

theorem account_creditLaw {s : State} (h : CreditLaw s) (k cls : ClassId) (n : Nat) (rr : Bool) :
    CreditLaw (account s k cls n rr) := (charge_creditLaw h k n).of_eq (by simp [account]) (by simp [account])

theorem nextSlotGrant_creditLaw {s : State} (h : CreditLaw s) : CreditLaw (nextSlotGrant s) := by
  rcases nextSlotGrant_cases s with he | ⟨i, a, cls, rr, -, he⟩
  · rwa [he]
  · have hacted : CreditLaw (followLine (acted s i a) i s.slots[i].line a) :=
      h.of_eq (by simp [acted, ungrouped]) (by simp [acted, ungrouped])
    rw [he, grantSlot_eq]
    have hgranted := account_creditLaw hacted s.slots[i].cls cls (chargeOf s.slots[i] a) rr
    exact hgranted.of_eq

theorem complete_creditLaw {s : State} (h : CreditLaw s) (tag : Nat) (o : OpOutcome) :
    CreditLaw (complete s tag o) := by
  unfold complete
  split
  · unfold completeTag
    split
    · exact conclude_creditLaw h.of_eq
    · exact h.of_eq
    · exact h.of_eq
  · exact h.of_eq

theorem timeStep_creditLaw {s : State} (h : CreditLaw s) : CreditLaw (timeStep s) := by
  have hadvanced : CreditLaw (advanceTime s) := h.of_eq
  exact conclude_creditLaw ((judgeRefill_creditLaw hadvanced).of_eq (by simp) (by simp))

/-- A COMMIT clamps every balance to its new ceiling, which is 64 at least (R122, R181). -/
theorem clampBalances_creditLaw {s : State} (h : CreditLaw s) (valid : ∀ it, ¬ ItemFails s.staged it) :
    CreditLaw (clampBalances (adoptStaged s)) := by
  refine .of_tabulate (c := s.staged) (f := fun k => min s.balances[k] (ceiling s.staged k)) rfl rfl fun k => ?_
  obtain ⟨-, hfloor, -⟩ := h k
  have hlegal : ¬ (ceiling s.staged k < 64 ∨ 1048575 < ceiling s.staged k) := valid (.cls k .ceiling)
  exact ⟨by omega, by omega, by omega⟩

theorem commitPart_creditLaw {s : State} (h : CreditLaw s) : CreditLaw (commitPart s) := by
  have hvalidate : CreditLaw (validateAndCommit s) := by
    unfold validateAndCommit
    split
    · exact answerMgmt_creditLaw h _ _
    · next hnone =>
      have hclamped := clampBalances_creditLaw h (lowestFailure_eq_none hnone)
      exact answerMgmt_creditLaw (conclude_creditLaw (hclamped.of_eq (by simp) (by simp))) _ _
  unfold commitPart
  split
  case h_1 => exact answerMgmt_creditLaw h _ _
  all_goals exact hvalidate

theorem drainPart_creditLaw {s : State} (h : CreditLaw s) : CreditLaw (drainPart s) := by
  unfold drainPart
  split
  · exact answerMgmt_creditLaw (judgeEmpty_creditLaw h.of_eq) _ _
  all_goals exact answerMgmt_creditLaw h _ _

theorem restartPart_creditLaw {s : State} (h : CreditLaw s) : CreditLaw (restartPart s) := by
  by_cases hs : s.part = .restarting
  · rw [restartPart_busy hs]
    exact answerMgmt_creditLaw h _ _
  · rw [restartPart_eq hs]
    exact answerMgmt_creditLaw (conclude_creditLaw (h.of_eq (by simp [restarted]) (by simp [restarted]))) _ _

theorem afterReset_creditLaw (s : State) : CreditLaw (afterReset s) := by
  intro k
  have hceiling : ceiling (afterReset s).active k = 8192 := by simp [afterReset, State.reset, ConfigSet.reset, ceiling]
  have hbalance : (afterReset s).balances[k] = 8192 := by simp [afterReset, State.reset]
  rw [hceiling, hbalance]
  omega

theorem effect_creditLaw (c : Instr) {s : State} (h : CreditLaw s) : CreditLaw (effect c s) := by
  cases c with
  | delivery => exact deliver_creditLaw h
  | grant => exact nextSlotGrant_creditLaw h
  | completion tag st line => exact complete_creditLaw h tag _
  | timeBaseStep => exact timeStep_creditLaw h
  | refillExpiry => exact judgeRefill_creditLaw h
  | responseTimeout τ => exact conclude_creditLaw h.of_eq
  | hardReset => exact afterReset_creditLaw s
  | commit => exact commitPart_creditLaw h
  | drain => exact drainPart_creditLaw h
  | restart => exact restartPart_creditLaw h
  | presentation _ | drainGrant | hold _ | aged _ | urgentEpisode _ | resetDeassert | shortFrame | unknownCommand _
  | readItem _ | writeItem _ _ | discardStaged | resume | takeFault | ackAlert _ | clearCounters | status _ =>
    exact h.of_eq (by simp [effect]) (by simp [effect])

/-- Settles O50: a charge stops at −64 and a refill at the ceiling, a COMMIT clamps to a validated ceiling, and a
restart ends at the ceiling. -/
theorem stepKeepsCreditLaw : Obligations.StepKeepsCreditLaw := fun _ _ =>
  step_keeps (fun _ _ h => h.of_eq) fun c _ h => effect_creditLaw c h

/-! ## What a grant or drain command does (R115) -/

/-- Settles O35: the grant made is that of the choice, or none. -/
theorem grantOnlyAsChosen : Obligations.GrantOnlyAsChosen := by
  intro s
  have hsame {c : Instr} (heffect : effect c s = s) (hc : exec c s = unlessReset s (effect c s)) :
      exec c s = .next s := by
    rw [hc, heffect, unlessReset, ite_self]
  refine ⟨fun hslot => hsame ?_ rfl, fun hdrain => hsame ?_ rfl⟩
  · rw [effect, nextSlotGrant]
    split
    · next h => exact absurd h (hslot _ _ _ _)
    · rfl
    · rfl
  · rw [effect, nextDrainGrant]
    split
    · next h => exact absurd h (hdrain _)
    · rfl
    · rfl

/-! ## HOLD (R113, R141) -/

/-- Settles O41: every op's choice asks for HOLD deasserted. -/
theorem holdIsALevel : Obligations.HoldIsALevel := by
  refine ⟨fun _ _ => rfl, fun s hhold => ⟨fun e h => ?_, fun i a e rr h => ?_⟩⟩
  · obtain ⟨-, hreleased⟩ := canIssue_iff.1 (choose_drain_canIssue h)
    rw [hhold] at hreleased
    cases hreleased
  · obtain ⟨-, -, -, hready⟩ := grantableAction_iff.1 (choose_slot h)
    refine eq_false_of_ne_true fun hop => ?_
    obtain ⟨-, hreleased⟩ := hready hop
    rw [hhold] at hreleased
    cases hreleased

/-! ## Drains that wait (R75, R114, R116) -/

/-- A memory op can be issued (R113). -/
def Issues (s : State) : Prop := (∃ τ : TagId, s.tags[τ] = .free) ∧ s.holdLine = false

/-- The entry waits for its drain with a demanded reason (R75). -/
def DemandWaits (s : State) (d : EntryId) : Prop :=
  s.entries[d].state = .drainPending ∧ ∃ r ∈ s.entries[d].reasons, demanded r = true

/-- The entry waits for its drain with background reasons only (R75). -/
def BackgroundWaits (s : State) (d : EntryId) : Prop :=
  s.entries[d].state = .drainPending ∧ ∀ r ∈ s.entries[d].reasons, demanded r = false

/-- No entry that satisfies `waits` has a greater age, and no lower-numbered one an equal age (R114). -/
def FirstByAge (waits : EntryId → Prop) (age : EntryId → Nat) (e : EntryId) : Prop :=
  waits e ∧ ∀ e', waits e' → age e' ≤ age e ∧ (age e' = age e → e ≤ e')

theorem holdsDemanded_iff {m : MergeEntry} : holdsDemanded m = true ↔ ∃ r ∈ m.reasons, demanded r = true :=
  List.any_eq_true

theorem demandWaits_iff {s : State} {d : EntryId} :
    (s.entries[d].state == .drainPending && holdsDemanded s.entries[d]) = true ↔ DemandWaits s d := by
  rw [Bool.and_eq_true, beq_iff_eq, holdsDemanded_iff, DemandWaits]

theorem backgroundWaits_iff {s : State} {d : EntryId} :
    (s.entries[d].state == .drainPending && !holdsDemanded s.entries[d]) = true ↔ BackgroundWaits s d := by
  rw [Bool.and_eq_true, beq_iff_eq, Bool.not_eq_true', ← Bool.not_eq_true, holdsDemanded_iff, BackgroundWaits]
  push Not
  simp only [ne_eq, Bool.not_eq_true]

/-- An entry that waits for its drain does so with a demanded reason or with background reasons only. -/
theorem demandWaits_or_backgroundWaits {s : State} {d : EntryId} (h : s.entries[d].state = .drainPending) :
    DemandWaits s d ∨ BackgroundWaits s d := by
  by_cases hd : ∃ r ∈ s.entries[d].reasons, demanded r = true
  · exact .inl ⟨h, hd⟩
  · push Not at hd
    exact .inr ⟨h, fun r hr => eq_false_of_ne_true (hd r hr)⟩

section
variable {s : State} {p : EntryId → Bool} {age : EntryId → Nat} {waits : EntryId → Prop}

/-- A category of drains offers the first by age of those that wait, where an op can be issued. -/
theorem oldestDrain_some (hp : ∀ d, p d = true ↔ waits d) {c : Choice}
    (h : (if canIssue s then (oldestEntry p age).map Choice.drain else none) = some c) :
    Issues s ∧ ∃ e, c = .drain e ∧ FirstByAge waits age e := by
  split at h
  · next hissue =>
    obtain ⟨e, he, rfl⟩ := Option.map_eq_some_iff.1 h
    obtain ⟨hpe, hfirst⟩ := (oldestEntry_spec p age).1 e he
    exact ⟨canIssue_iff.1 hissue, e, rfl, (hp e).1 hpe, fun e' he' => hfirst e' ((hp e').2 he')⟩
  · cases h

/-- It offers none only where no op can be issued or no drain of the category waits. -/
theorem oldestDrain_none (hp : ∀ d, p d = true ↔ waits d)
    (h : (if canIssue s then (oldestEntry p age).map Choice.drain else none) = none) (issues : Issues s) (d : EntryId) :
    ¬ waits d := by
  rw [if_pos (canIssue_iff.2 issues)] at h
  rw [← hp, Bool.not_eq_true]
  exact (oldestEntry_spec p age).2 (Option.map_eq_none_iff.1 h) d

end

/-- Category 1 (R116). -/
theorem demandedDrain_some {s : State} {c : Choice} (h : demandedDrain s = some c) : Issues s ∧ ∃ e, c = .drain e ∧
    FirstByAge (DemandWaits s) (fun d => ageOf s.timeBase (s.entries[d].demandTime.getD s.timeBase)) e :=
  oldestDrain_some (fun _ => demandWaits_iff) h

theorem demandedDrain_none {s : State} (h : demandedDrain s = none) (issues : Issues s) (d : EntryId) :
    ¬ DemandWaits s d :=
  oldestDrain_none (fun _ => demandWaits_iff) h issues d

/-- Category 4 (R116). -/
theorem backgroundDrain_some {s : State} {c : Choice} (h : backgroundDrain s = some c) : Issues s ∧ ∃ e, c = .drain e ∧
    FirstByAge (BackgroundWaits s) (fun d => ageOf s.timeBase s.entries[d].firstMerge) e :=
  oldestDrain_some (fun _ => backgroundWaits_iff) h

theorem backgroundDrain_none {s : State} (h : backgroundDrain s = none) (issues : Issues s) (d : EntryId) :
    ¬ BackgroundWaits s d :=
  oldestDrain_none (fun _ => backgroundWaits_iff) h issues d

/-- Settles O25: the demanded drains are the arbiter's first category. -/
theorem demandedDrainsComeFirst : Obligations.DemandedDrainsComeFirst := by
  rintro s hfree hhold waits age ⟨d, hd⟩
  cases h : demandedDrain s with
  | none => exact absurd hd (demandedDrain_none h ⟨hfree, hhold⟩ d)
  | some c =>
    obtain ⟨-, e, rfl, hwaits, hfirst⟩ := demandedDrain_some h
    exact ⟨e, by rw [choose, h, Option.some_or], hwaits, hfirst⟩

/-! ## What the classes of a category offer (R105, R112, R116 to R118) -/

theorem offers_iff {s : State} {k : ClassId} : Offers s k ↔ (offer s k).isSome = true := by
  rw [offer, List.findSome?_isSome_iff]
  simp only [List.mem_filter, candidateAt_iff, Option.isSome_map, Option.isSome_iff_exists, grantableAction_iff]
  constructor
  · rintro ⟨j, hj, hq, hk, ho, b, hb, hr⟩
    exact ⟨j, ⟨hj, hq, hk⟩, b, hq, ho, hb, hr⟩
  · rintro ⟨j, ⟨hj, hq, hk⟩, b, -, ho, hb, hr⟩
    exact ⟨j, hj, hq, hk, ho, b, hb, hr⟩

theorem firstOffer_none {s : State} {classes : List ClassId} {p : ClassId → Bool} {rr : Bool}
    (h : firstOffer s classes p rr = none) {k : ClassId} (hk : k ∈ classes) (hp : p k = true) : ¬ Offers s k := by
  have hnone := List.findSome?_eq_none_iff.1 h k (List.mem_filter.2 ⟨hk, hp⟩)
  rw [offers_iff, Option.map_eq_none_iff.1 hnone]
  exact Bool.false_ne_true

theorem firstOffer_ne_drain {s : State} {classes : List ClassId} {p : ClassId → Bool} {rr : Bool} {d : EntryId} :
    firstOffer s classes p rr ≠ some (.drain d) := fun h => by
  obtain ⟨k, -, hk⟩ := List.exists_of_findSome?_eq_some h
  obtain ⟨_, -, heq⟩ := Option.map_eq_some_iff.1 hk
  cases heq

/-- The class chosen is the first in turn of those that satisfy the test and offer a grant. -/
theorem firstOffer_first {s : State} {classes : List ClassId} {p : ClassId → Bool} {rr rr' : Bool} {i : SlotId}
    {a : Action} {e : ClassId} {turn : ClassId → Nat} (sorted : classes.Pairwise (fun j k => turn j < turn k))
    (all : ∀ k, k ∈ classes) (h : firstOffer s classes p rr = some (.slot i a e rr')) :
    rr' = rr ∧ p e = true ∧ ∀ k, turn k < turn e → p k = true → ¬ Offers s k := by
  have hpasses := firstOffer_passes h
  obtain ⟨before, e', after, hlist, hoffer, hbefore⟩ := List.findSome?_eq_some_iff.1 h
  obtain ⟨_, -, heq⟩ := Option.map_eq_some_iff.1 hoffer
  cases heq
  refine ⟨rfl, hpasses, fun k hk hp => ?_⟩
  have hsorted : (before ++ e :: after).Pairwise (fun j k => turn j < turn k) := hlist ▸ sorted.filter _
  obtain ⟨-, hfrom, -⟩ := List.pairwise_append.1 hsorted
  have hafter := (List.pairwise_cons.1 hfrom).1
  have hmem : k ∈ before ++ e :: after := hlist ▸ List.mem_filter.2 ⟨all k, hp⟩
  rcases List.mem_append.1 hmem with hk' | hk'
  · rw [offers_iff, Option.map_eq_none_iff.1 (hbefore k hk')]
    exact Bool.false_ne_true
  · rcases List.mem_cons.1 hk' with rfl | hk'
    · exact absurd hk (lt_irrefl _)
    · exact absurd (hafter k hk') (lt_asymm hk)

theorem mem_classesDown : ∀ k : ClassId, k ∈ classesDown := by decide

theorem classesDown_sorted : classesDown.Pairwise (fun j k => 5 - j.val < 5 - k.val) := by decide

theorem mem_classesFrom (p k : ClassId) : k ∈ classesFrom p :=
  List.mem_map.2 ⟨k - p, List.mem_finRange _, add_sub_cancel p k⟩

theorem classesFrom_sorted (p : ClassId) :
    (classesFrom p).Pairwise (fun j k => (j - p : ClassId).val < (k - p : ClassId).val) := by
  rw [classesFrom, List.pairwise_map]
  simp only [add_sub_cancel_left]
  exact List.pairwise_lt_finRange 6

/-- The class is metered and its balance is spent (R105). -/
def Spent (s : State) (k : ClassId) : Prop := s.active.classes[k].metered = 1 ∧ s.balances[k] ≤ 0

/-- The class is spent and hard-capped (R105). -/
def HeldBack (s : State) (k : ClassId) : Prop := Spent s k ∧ s.active.classes[k].hardCap = 1

theorem heldBack_iff {s : State} {k : ClassId} : standing s k = .held ↔ HeldBack s k :=
  standing_held_iff.trans and_assoc.symm

theorem standing_inBudget_iff {s : State} {k : ClassId} : standing s k = .inBudget ↔ ¬ Spent s k := by
  have hmetered : metered s.active k = false ↔ ¬ s.active.classes[k].metered = 1 := by
    rw [← flagOf_iff, Bool.not_eq_true]
    rfl
  rw [Spent, not_and_or, not_le, ← hmetered, standing]
  split
  · next hm => exact ⟨fun _ => .inl hm, fun _ => rfl⟩
  · next hm =>
    split
    · next hb => exact ⟨fun _ => .inr hb, fun _ => rfl⟩
    · next hb =>
      have hother : (if hardCap s.active k = true then Standing.held else .overBudget) ≠ .inBudget := by
        split <;> nofun
      exact ⟨fun h => absurd h hother, fun h => absurd h (not_or_intro hm hb)⟩

theorem standing_overBudget_iff {s : State} {k : ClassId} :
    standing s k = .overBudget ↔ Spent s k ∧ ¬ HeldBack s k := by
  rw [← heldBack_iff, ← not_not (a := Spent s k), ← standing_inBudget_iff]
  cases standing s k <;> decide

/-- Category 2: an urgent class that is not held, the highest first (R116). -/
def urgentOffer (s : State) : Option Choice :=
  firstOffer s classesDown (fun e => s.urgent[e] && standing s e != .held) false

/-- Category 3: a class in budget, the highest first (R116). -/
def budgetOffer (s : State) : Option Choice := firstOffer s classesDown (fun e => standing s e == .inBudget) false

/-- Category 5: a class over budget, from the round-robin pointer upward (R116, R118). -/
def overBudgetOffer (s : State) : Option Choice :=
  firstOffer s (classesFrom s.pointer) (fun e => standing s e == .overBudget) true

/-- The choice is of the first of the five categories that offers one (R116). -/
theorem choose_eq (s : State) : choose s = (demandedDrain s).or ((urgentOffer s).or ((budgetOffer s).or
    ((backgroundDrain s).or (overBudgetOffer s)))) := rfl

/-- The class's urgency flag is set and it is not held (R105, R110). -/
def UrgentOpen (s : State) (k : ClassId) : Prop := s.urgent[k] = true ∧ ¬ HeldBack s k

/-- The class is over budget: spent and not held (R105). -/
def Overspent (s : State) (k : ClassId) : Prop := Spent s k ∧ ¬ HeldBack s k

theorem urgentOpen_iff {s : State} {k : ClassId} : (s.urgent[k] && standing s k != .held) = true ↔ UrgentOpen s k := by
  rw [Bool.and_eq_true, bne_iff_ne, ne_eq, heldBack_iff, UrgentOpen]

theorem inBudget_iff {s : State} {k : ClassId} : (standing s k == .inBudget) = true ↔ ¬ Spent s k := by
  rw [beq_iff_eq, standing_inBudget_iff]

theorem overspent_iff {s : State} {k : ClassId} : (standing s k == .overBudget) = true ↔ Overspent s k := by
  rw [beq_iff_eq, standing_overBudget_iff, Overspent]

/-- A class above another comes before it from 5 down. -/
theorem before_of_lt {e k : ClassId} (h : e < k) : 5 - k.val < 5 - e.val := by
  have hval := Fin.lt_def.1 h
  omega

section
variable {s : State}

theorem urgentOffer_none (h : urgentOffer s = none) (k : ClassId) (hk : UrgentOpen s k) : ¬ Offers s k :=
  firstOffer_none h (mem_classesDown k) (urgentOpen_iff.2 hk)

theorem budgetOffer_none (h : budgetOffer s = none) (k : ClassId) (hk : ¬ Spent s k) : ¬ Offers s k :=
  firstOffer_none h (mem_classesDown k) (inBudget_iff.2 hk)

theorem overBudgetOffer_none (h : overBudgetOffer s = none) (k : ClassId) (hk : Overspent s k) : ¬ Offers s k :=
  firstOffer_none h (mem_classesFrom _ k) (overspent_iff.2 hk)

variable {i : SlotId} {a : Action} {e : ClassId} {rr : Bool}

theorem urgentOffer_slot (h : urgentOffer s = some (.slot i a e rr)) :
    rr = false ∧ UrgentOpen s e ∧ ∀ k, e < k → UrgentOpen s k → ¬ Offers s k := by
  obtain ⟨hrr, hp, hfirst⟩ := firstOffer_first classesDown_sorted mem_classesDown h
  exact ⟨hrr, urgentOpen_iff.1 hp, fun k hk hu => hfirst k (before_of_lt hk) (urgentOpen_iff.2 hu)⟩

theorem budgetOffer_slot (h : budgetOffer s = some (.slot i a e rr)) :
    rr = false ∧ ¬ Spent s e ∧ ∀ k, e < k → ¬ Spent s k → ¬ Offers s k := by
  obtain ⟨hrr, hp, hfirst⟩ := firstOffer_first classesDown_sorted mem_classesDown h
  exact ⟨hrr, inBudget_iff.1 hp, fun k hk hb => hfirst k (before_of_lt hk) (inBudget_iff.2 hb)⟩

theorem overBudgetOffer_slot (h : overBudgetOffer s = some (.slot i a e rr)) :
    rr = true ∧ Overspent s e ∧
      ∀ k, Overspent s k → (k - s.pointer : ClassId).val < (e - s.pointer : ClassId).val → ¬ Offers s k := by
  obtain ⟨hrr, hp, hfirst⟩ := firstOffer_first (classesFrom_sorted s.pointer) (mem_classesFrom s.pointer) h
  exact ⟨hrr, overspent_iff.1 hp, fun k ho hk => hfirst k hk (overspent_iff.2 ho)⟩

end

/-! ## The five categories (R116) -/

section
variable {s : State} {i : SlotId} {a : Action} {e : ClassId} {rr : Bool}

/-- Where neither category of drains offers one, no drain can be granted. -/
theorem no_drain_waits (hd : demandedDrain s = none) (hb : backgroundDrain s = none) (issues : Issues s) (d : EntryId) :
    s.entries[d].state ≠ .drainPending := fun h =>
  (demandWaits_or_backgroundWaits h).elim (demandedDrain_none hd issues d) (backgroundDrain_none hb issues d)

/-- A slot is chosen in category 2, 3 or 5, and no category before it offers a grant. -/
theorem choose_slot_category (h : choose s = some (.slot i a e rr)) : demandedDrain s = none ∧
    (urgentOffer s = some (.slot i a e rr) ∨
     (urgentOffer s = none ∧ budgetOffer s = some (.slot i a e rr)) ∨
     (urgentOffer s = none ∧ budgetOffer s = none ∧ backgroundDrain s = none ∧
        overBudgetOffer s = some (.slot i a e rr))) := by
  simp only [choose_eq, Option.or_eq_some_iff] at h
  rcases h with hd | ⟨hd, hu | ⟨hu, hb | ⟨hb, hg | ⟨hg, ho⟩⟩⟩⟩
  · obtain ⟨-, _, heq, -⟩ := demandedDrain_some hd
    cases heq
  · exact ⟨hd, .inl hu⟩
  · exact ⟨hd, .inr (.inl ⟨hu, hb⟩)⟩
  · obtain ⟨-, _, heq, -⟩ := backgroundDrain_some hg
    cases heq
  · exact ⟨hd, .inr (.inr ⟨hu, hb, hg, ho⟩)⟩

/-- A drain is chosen in category 1 or 4, and no category before it offers a grant. -/
theorem choose_drain_category {d : EntryId} (h : choose s = some (.drain d)) : demandedDrain s = some (.drain d) ∨
    (demandedDrain s = none ∧ urgentOffer s = none ∧ budgetOffer s = none ∧ backgroundDrain s = some (.drain d)) := by
  simp only [choose_eq, Option.or_eq_some_iff] at h
  rcases h with hd | ⟨hd, hu | ⟨hu, hb | ⟨hb, hg | ⟨hg, ho⟩⟩⟩⟩
  · exact .inl hd
  · exact absurd hu firstOffer_ne_drain
  · exact absurd hb firstOffer_ne_drain
  · exact .inr ⟨hd, hu, hb, hg⟩
  · exact absurd ho firstOffer_ne_drain

end

/-- Settles O27: what each category offers, where none before it does. -/
theorem classesAreTakenInOrder : Obligations.ClassesAreTakenInOrder := by
  intro s issues spent held urgent budget overspent turn demands background age
  refine ⟨fun i a e rr h => ?_, fun d h => ?_, fun h => ?_⟩
  · obtain ⟨hd, hcategory⟩ := choose_slot_category h
    refine ⟨offers_iff.2 (by rw [choose_offer h]; rfl), demandedDrain_none hd, ?_, ?_⟩
    · rintro rfl
      rcases hcategory with hu | ⟨hu, hb⟩ | ⟨-, -, -, ho⟩
      · obtain ⟨-, hurgent⟩ := urgentOffer_slot hu
        exact .inl hurgent
      · obtain ⟨-, hbudget, hfirst⟩ := budgetOffer_slot hb
        exact .inr ⟨hbudget, urgentOffer_none hu, hfirst⟩
      · obtain ⟨hrr, -⟩ := overBudgetOffer_slot ho
        cases hrr
    · rintro rfl
      rcases hcategory with hu | ⟨-, hb⟩ | ⟨hu, hb, hg, ho⟩
      · obtain ⟨hrr, -⟩ := urgentOffer_slot hu
        cases hrr
      · obtain ⟨hrr, -⟩ := budgetOffer_slot hb
        cases hrr
      · obtain ⟨-, hover, hfirst⟩ := overBudgetOffer_slot ho
        exact ⟨hover, urgentOffer_none hu, budgetOffer_none hb, no_drain_waits hd hg, hfirst⟩
  · rcases choose_drain_category h with hd | ⟨hd, hu, hb, hg⟩
    · obtain ⟨hissues, _, heq, hwaits, -⟩ := demandedDrain_some hd
      cases heq
      exact ⟨hissues, .inl hwaits⟩
    · obtain ⟨hissues, _, heq, hwaits, hfirst⟩ := backgroundDrain_some hg
      cases heq
      exact ⟨hissues, .inr ⟨hwaits, demandedDrain_none hd hissues, urgentOffer_none hu, budgetOffer_none hb, hfirst⟩⟩
  · simp only [choose_eq, Option.or_eq_none_iff] at h
    obtain ⟨hd, -, hb, hg, ho⟩ := h
    refine ⟨no_drain_waits hd hg, fun k hk => ?_⟩
    by_cases hspent : Spent s k
    · exact overBudgetOffer_none ho k ⟨hspent, hk⟩
    · exact budgetOffer_none hb k hspent

end Sys2Proof.Machine

/-! PROOFS. The memory port: stray and late completions, and what they leave of the pending causes. -/

namespace Sys2Proof.Machine

-- One proof at a time: elaborated in parallel they need more memory than the check has.
set_option Elab.async false

/-! ## The bits of a packed word (R194, R198) -/

theorem packBits_lt (width : Nat) (f : Nat → Bool) : packBits width f < 2 ^ width := by
  induction width with
  | zero => simp [packBits]
  | succ k ih =>
    rw [packBits, pow_succ]
    split <;> omega

theorem testBit_packBits (width : Nat) (f : Nat → Bool) (n : Nat) :
    (packBits width f).testBit n = (decide (n < width) && f n) := by
  induction width with
  | zero => simp [packBits]
  | succ k ih =>
    have hsum : packBits (k + 1) f = 2 ^ k * (f k).toNat + packBits k f := by
      cases h : f k <;> simp [packBits, h, Nat.add_comm]
    rw [hsum, Nat.testBit_two_pow_mul_add _ (packBits_lt k f), ih, Nat.testBit_bool_toNat]
    rcases Nat.lt_trichotomy n k with h | rfl | h
    · simp [h, Nat.lt_succ_of_lt h]
    · simp
    · simp [show ¬ n < k by omega, show ¬ n < k + 1 by omega, show n - k ≠ 0 by omega]

/-- Each bit below 7 of the pending causes is its cause in the cause layout (R194, R198). -/
theorem pendingCauses_bit (s : State) {n : Nat} (hn : n < 7) : (pendingCauses s).getLsbD n = causePending s n := by
  rw [pendingCauses, BitVec.getLsbD_ofNat, testBit_packBits]
  simp [hn, show n < 32 by omega]

theorem tagsExhausted_iff {s : State} : tagsExhausted s = true ↔ ∀ τ : TagId, s.tags[τ] = .quarantined := by
  simp only [tagsExhausted, allOf_iff, beq_iff_eq]

/-- One record in another state than QUARANTINED is enough for the condition not to hold (R140). -/
theorem tagsExhausted_eq_false {s : State} {τ : TagId} (h : s.tags[τ] ≠ .quarantined) : tagsExhausted s = false :=
  eq_false_of_ne_true fun hall => h (tagsExhausted_iff.1 hall τ)

/-! ## A completion by the state of its tag (R138, R139) -/

theorem complete_above {s : State} {n : Nat} (h : 24 ≤ n) (o : OpOutcome) : complete s n o = strayCompletion s :=
  dif_neg (Nat.not_lt.2 h)

theorem complete_below (s : State) (τ : TagId) (o : OpOutcome) : complete s τ o = completeTag s τ o := dif_pos τ.isLt

theorem complete_free {s : State} {τ : TagId} (h : s.tags[τ] = .free) (o : OpOutcome) :
    complete s τ o = strayCompletion s := by
  rw [complete_below, completeTag, h]

theorem complete_quarantined {s : State} {τ : TagId} (h : s.tags[τ] = .quarantined) (o : OpOutcome) :
    complete s τ o = lateCompletion s τ := by
  rw [complete_below, completeTag, h]

/-- Settles O36: a tag value above the table and a FREE tag end in the same discard. -/
theorem strayCompletionIsDiscarded : Obligations.StrayCompletionIsDiscarded := by
  intro s n st d hr hstray
  have hcomplete : complete s n (completionOutcome st d) = strayCompletion s := by
    rcases hstray with habove | ⟨τ, rfl, hfree⟩
    · exact complete_above habove _
    · exact complete_free hfree _
  rw [exec_released hr, effect, hcomplete]
  rfl

/-- Settles O37: the freed tag itself is the one that is no longer QUARANTINED. -/
theorem lateCompletionFreesTheTag : Obligations.LateCompletionFreesTheTag := by
  intro s τ st d hr hτ
  have hfreed : (lateCompletion s τ).tags[τ] ≠ .quarantined := by
    rw [show (lateCompletion s τ).tags = put s.tags τ .free from rfl, get_put_self]
    nofun
  refine ⟨lateCompletion s τ, ?_, rfl, rfl, rfl, ?_⟩
  · rw [exec_released hr, effect, complete_quarantined hτ]
  · rw [pendingCauses_bit _ (by decide)]
    exact tagsExhausted_eq_false hfreed

end Sys2Proof.Machine

/-! PROOFS. Fences and deferred faults: the bounds of the Deferred Fault List, which every step keeps. -/

namespace Sys2Proof.Machine

-- One proof at a time: elaborated in parallel they need more memory than the check has.
set_option Elab.async false

/-! ## The bounds of the Deferred Fault List (R155, R157, R158) -/

/-- An event that leaves the list and its overflow count leaves the law. -/
theorem FaultListLaw.of_eq {s t : State} (h : FaultListLaw s) (faults : t.faults = s.faults := by simp)
    (overflow : t.overflow = s.overflow := by simp) : FaultListLaw t := by
  unfold FaultListLaw
  rw [faults, overflow]
  exact h

/-- Records join while there is room, and a drop is counted only once the eighth stands (R157). -/
theorem FaultListLaw.handed {s t : State} {rs : List FaultRecord} (h : FaultListLaw s)
    (records : RecordsHanded s t rs) : FaultListLaw t := by
  obtain ⟨hlength, hoverflow, hfull⟩ := h
  obtain ⟨hfaults, hcount, -, -⟩ := records
  have hjoined : t.faults.length = s.faults.length + min (8 - s.faults.length) rs.length := by
    rw [hfaults, List.length_append, List.length_take]
  unfold FaultListLaw
  rw [hcount, hjoined]
  split
  · exact ⟨by omega, hoverflow, fun hdrops => by have := hfull hdrops; omega⟩
  · exact ⟨by omega, by omega, fun _ => by omega⟩

/-- A record taken makes room, and the overflow count returns to 0 with it (R158). -/
theorem takeFault_faultListLaw {s : State} (h : FaultListLaw s) : FaultListLaw (takeFault s) := by
  unfold takeFault
  split
  · exact h.of_eq
  · next r rest hfaults =>
    obtain ⟨hlength, -⟩ := h
    rw [hfaults, List.length_cons] at hlength
    exact ⟨Nat.le_of_succ_le hlength, Nat.zero_le _, fun hdrops => absurd rfl hdrops⟩

/-! ### The end of an op (R98, R99, R134) -/

theorem recordSlotLoss_faultListLaw {s : State} (h : FaultListLaw s) (i : SlotId) (o : OpOutcome) :
    FaultListLaw (recordSlotLoss s i o) := by
  unfold recordSlotLoss
  split
  · next kind _ =>
    exact (h.handed (recordsHanded_handRecord s (slotRecord s.slots[i] kind s.timeBase))).of_eq
  · exact h

theorem resolveSlot_faultListLaw {s : State} (h : FaultListLaw s) (i : SlotId) (o : OpOutcome) :
    FaultListLaw (resolveSlot s i o) := by
  unfold resolveSlot
  split
  · exact (recordSlotLoss_faultListLaw h i o).of_eq
  · exact h.of_eq

theorem drainAnswered_faultListLaw {s : State} (h : FaultListLaw s) (e : EntryId) (o : OpOutcome) :
    FaultListLaw (drainAnswered s e o) := by
  have hanswered : FaultListLaw (answerWaiting s e (writeStatus o)) := h.of_eq
  unfold drainAnswered
  split
  · exact hanswered.handed (recordEntryLoss_records _ e _)
  · exact hanswered

theorem resolveSource_faultListLaw {s : State} (h : FaultListLaw s) (src : Source) (o : OpOutcome) :
    FaultListLaw (resolveSource s src o) := by
  cases src with
  | slot i => exact resolveSlot_faultListLaw h i o
  | entry e =>
    rw [resolveSource, resolveEntry_eq]
    exact (drainAnswered_faultListLaw h e o).of_eq

theorem complete_faultListLaw {s : State} (h : FaultListLaw s) (tag : Nat) (o : OpOutcome) :
    FaultListLaw (complete s tag o) := by
  unfold complete
  split
  · unfold completeTag
    split
    · next op _ => exact (resolveSource_faultListLaw h op.source o).of_eq (by simp [endOp]) (by simp [endOp])
    · exact h.of_eq
    · exact h.of_eq
  · exact h.of_eq

theorem judgeTimeout_faultListLaw {s : State} (h : FaultListLaw s) (τ : TagId) : FaultListLaw (judgeTimeout s τ) := by
  unfold judgeTimeout
  split
  · next op _ =>
    split
    · exact (resolveSource_faultListLaw h op.source .timeout).of_eq (by simp [timeOut]) (by simp [timeOut])
    · exact h
  · exact h
  · exact h

theorem judgeAllTimeouts_faultListLaw {s : State} (h : FaultListLaw s) : FaultListLaw (judgeAllTimeouts s) :=
  forEach_keeps (P := FaultListLaw) (fun _ τ ht => judgeTimeout_faultListLaw ht τ) h

/-! ### Every command -/

theorem timeStep_faultListLaw {s : State} (h : FaultListLaw s) : FaultListLaw (timeStep s) := by
  have hjudged : FaultListLaw (judgeAllAged (judgeAllUrgency (judgeRefill (advanceTime s)))) := h.of_eq
  exact (judgeAllTimeouts_faultListLaw hjudged).of_eq (by simp [timeStep]) (by simp [timeStep])

theorem commitPart_faultListLaw {s : State} (h : FaultListLaw s) : FaultListLaw (commitPart s) := by
  have hbefore : FaultListLaw (judgePressure (judgeAllAged (judgeAllUrgency (clampBalances (adoptStaged s))))) :=
    h.of_eq
  have hjudged : FaultListLaw (commitJudged s) := judgeAllTimeouts_faultListLaw hbefore
  have hvalidate : FaultListLaw (validateAndCommit s) := by
    unfold validateAndCommit
    split
    · exact h.of_eq
    · rw [commitStaged_eq]
      exact hjudged.of_eq
  unfold commitPart
  split
  case h_1 => exact h.of_eq
  all_goals exact hvalidate

/-- RESTART hands one record for each entry that it discards (R101, R167). -/
theorem restartPart_faultListLaw {s : State} (h : FaultListLaw s) : FaultListLaw (restartPart s) := by
  by_cases hs : s.part = .restarting
  · rw [restartPart_busy hs]
    exact h.of_eq
  · rw [restartPart_eq hs]
    exact (h.handed (restarted_records s)).of_eq

theorem afterReset_faultListLaw (s : State) : FaultListLaw (afterReset s) :=
  ⟨Nat.zero_le _, Nat.zero_le _, fun hdrops => absurd rfl hdrops⟩

theorem effect_faultListLaw (c : Instr) {s : State} (h : FaultListLaw s) : FaultListLaw (effect c s) := by
  cases c with
  | completion tag st line => exact complete_faultListLaw h tag _
  | timeBaseStep => exact timeStep_faultListLaw h
  | responseTimeout τ => exact (judgeTimeout_faultListLaw h τ).of_eq (by simp [effect]) (by simp [effect])
  | hardReset => exact afterReset_faultListLaw s
  | commit => exact commitPart_faultListLaw h
  | restart => exact restartPart_faultListLaw h
  | takeFault => exact takeFault_faultListLaw h
  | presentation _ | delivery | grant | drainGrant | hold _ | refillExpiry | aged _ | urgentEpisode _ | resetDeassert
  | shortFrame | unknownCommand _ | readItem _ | writeItem _ _ | discardStaged | drain | resume | ackAlert _
  | clearCounters | status _ =>
    exact h.of_eq (by simp [effect]) (by simp [effect])

/-- Settles O54: a record handed joins only where there is room and is counted only where there is none, and
TAKE_FAULT takes a record and the count together. -/
theorem stepKeepsFaultListLaw : Obligations.StepKeepsFaultListLaw := fun _ _ =>
  step_keeps (fun _ _ h => h.of_eq) fun c _ h => effect_faultListLaw c h

end Sys2Proof.Machine

/-! PROOFS. Part states and reset: every command is taken, what RESET holds back, the state that a hard reset leaves, and
the transitions of the part state. -/

namespace Sys2Proof.Machine

-- One proof at a time: elaborated in parallel they need more memory than the check has.
set_option Elab.async false

/-! ## What RESET holds back (R173) -/

/-- Every command but a HOLD level, a reset and the release is one that RESET holds back. -/
theorem exec_eq_unlessReset {c : Instr} {s : State} (reset : c ≠ .hardReset) (release : c ≠ .resetDeassert)
    (hold : ∀ l, c ≠ .hold l) : exec c s = unlessReset s (effect c s) := by
  cases c
  case hardReset => exact absurd rfl reset
  case resetDeassert => exact absurd rfl release
  case hold l => exact absurd rfl (hold l)
  all_goals rfl

theorem exec_held {c : Instr} {s : State} (h : s.resetLine = true) (reset : c ≠ .hardReset)
    (release : c ≠ .resetDeassert) (hold : ∀ l, c ≠ .hold l) : exec c s = .next s :=
  (exec_eq_unlessReset reset release hold).trans (unlessReset_asserted h _)

/-- Every command answers the state as it stands or its effect. -/
theorem exec_next (c : Instr) (s : State) : exec c s = .next s ∨ exec c s = .next (effect c s) := by
  cases hr : s.resetLine with
  | false => exact .inr (exec_released hr)
  | true =>
    cases c with
    | hardReset | resetDeassert | hold => exact .inr rfl
    | _ => exact .inl (exec_held hr nofun nofun nofun)

/-- No effect reaches the commands that wait, a hard reset's included (logs 1 and 3). -/
theorem effect_pending (c : Instr) (s : State) : (effect c s).pending = s.pending := by
  cases c
  case hardReset => rfl
  all_goals simp [effect]

/-- Settles O2: what every command answers, and the queue through every effect. -/
theorem everyCommandIsTaken : Obligations.EveryCommandIsTaken := fun c s =>
  (exec_next c s).elim (fun h => ⟨s, h, rfl⟩) fun h => ⟨effect c s, h, effect_pending c s⟩

theorem shownResponse_asserted {s : State} (h : s.resetLine = true) : shownResponse s = none := if_pos h

theorem alert_asserted {s : State} (h : s.resetLine = true) : alert s = false := by
  simp only [alert, h, Bool.not_true, Bool.false_and]

theorem exec_hardReset (s : State) : exec .hardReset s = .next (afterReset s) := rfl

theorem exec_resetDeassert (s : State) : exec .resetDeassert s = .next { s with resetLine := false } := rfl

/-- Settles O3: RESET holds back every command but three, and the release after a hard reset is that of `afterReset`. -/
theorem heldWhileResetAsserted : Obligations.HeldWhileResetAsserted := by
  refine ⟨fun _ _ => exec_held, fun s hr => ⟨shownResponse_asserted hr, alert_asserted hr⟩, exec_resetDeassert,
    fun s t ht => ?_⟩
  rw [exec_hardReset] at ht
  cases ht
  exact exec_resetDeassert _

/-! ## The state that a hard reset leaves (R172), block by block -/

theorem afterReset_tagTable (s : State) (i : InitiatorId) (g : ReqTag) : (afterReset s).tagTable[i][g] = false := by
  simp [afterReset, State.reset]

theorem afterReset_refusals (s : State) (k : RefusalId) : (afterReset s).refusals[k] = none := by
  simp [afterReset, State.reset]

theorem afterReset_entries (s : State) (e : EntryId) : (afterReset s).entries[e] = MergeEntry.free := by
  simp [afterReset, State.reset]

theorem afterReset_tags (s : State) (τ : TagId) : (afterReset s).tags[τ] = .free := by
  simp [afterReset, State.reset]

/-- No live slot is of any class (R49). -/
theorem afterReset_occupancy (s : State) (k : ClassId) : occupancy (afterReset s) k = 0 := by
  refine List.countP_eq_zero.2 fun i _ => ?_
  rw [afterReset_slots]
  exact Bool.false_ne_true

/-- Each class begins with an empty queue, a balance at its ceiling and no urgency. -/
theorem afterReset_class (s : State) (k : ClassId) : (afterReset s).queues[k] = [] ∧
    occupancy (afterReset s) k = 0 ∧ (afterReset s).balances[k] = 8192 ∧ (afterReset s).urgent[k] = false :=
  ⟨by simp [afterReset, State.reset], afterReset_occupancy s k, by simp [afterReset, State.reset],
    by simp [afterReset, State.reset]⟩

/-- The reset set holds for every staged item the value of R194's reset column. -/
theorem itemValue_reset (it : StagedItem) : (itemValue ConfigSet.reset it).toNat = resetItem it := by
  cases it with
  | initiatorEnabled i | initiatorGroup i => simp [itemValue, ConfigSet.reset, resetItem]
  | classMap g u => simp [itemValue, ConfigSet.reset, resetItem]
  | windowRange w f => cases f <;> simp [itemValue, rangeValue, ConfigSet.reset, resetItem]
  | windowAttr w f => cases f <;> simp [itemValue, attrValue, ConfigSet.reset, WindowAttrs.reset, resetItem]
  | dfltAttr f => cases f <;> rfl
  | cls k f => cases f <;> simp [itemValue, classValue, ConfigSet.reset, resetItem]
  | dfltEnabled | refillPeriod | responseTimeout | holdLimit | mergeReserve | alertMask => rfl

theorem afterReset_classCounter (s : State) (k : ClassId) (x : ClassCounter) :
    classCounterValue (afterReset s).counters.perClass[k] x = 0 := by
  cases x <;> simp [afterReset, State.reset, Counters.reset, classCounterValue]

theorem afterReset_globalCounter (s : State) (x : GlobalCounter) :
    globalCounterValue (afterReset s).counters x = 0 := by
  cases x <;> rfl

/-- The edge causes are clear, and no tag is QUARANTINED (R140, R198). -/
theorem afterReset_causePending (s : State) (n : Nat) : causePending (afterReset s) n = false := by
  unfold causePending
  split
  case h_7 => exact tagsExhausted_eq_false (τ := 0) (by rw [afterReset_tags]; nofun)
  all_goals rfl

theorem afterReset_pendingCauses (s : State) : pendingCauses (afterReset s) = 0 := by
  have hnone : causePending (afterReset s) = fun _ => false := funext (afterReset_causePending s)
  rw [pendingCauses, hnone]
  rfl

/-- Settles O4: the reset state's values, block by block. -/
theorem hardResetState : Obligations.HardResetState := by
  intro s
  refine ⟨afterReset s, exec_hardReset s, rfl, rfl, rfl, rfl, afterReset_tagTable s, afterReset_refusals s,
    fun i => ?_, afterReset_class s, rfl, rfl, fun e => ?_, rfl, rfl, rfl, afterReset_tags s, fun k => ?_, rfl, rfl,
    fun _ => rfl, rfl, shownResponse_asserted rfl, fun it => ⟨itemValue_reset it, itemValue_reset it⟩, rfl, rfl, rfl,
    afterReset_classCounter s, afterReset_globalCounter s, afterReset_pendingCauses s, alert_asserted rfl⟩
  · rw [afterReset_slots]
    exact ⟨rfl, rfl, rfl, rfl⟩
  · rw [afterReset_entries]
    exact ⟨rfl, rfl, rfl, rfl⟩
  · rw [afterReset_fences]
    exact ⟨rfl, rfl, rfl, rfl, rfl⟩

/-! ## The reset state meets the laws -/

theorem afterReset_entryLaw (s : State) : EntryLaw (afterReset s) := by
  have hfree (e : EntryId) : (afterReset s).entries[e].state = .free := by rw [afterReset_entries]; rfl
  exact ⟨fun e he => absurd (hfree e) he, fun e _ he => absurd (hfree e) he, afterReset_writesHoldLane s⟩

theorem afterReset_quiescentLaw (s : State) : QuiescentLaw (afterReset s) := by
  refine quiescentLaw_iff.2 ⟨fun k hk => ?_, nofun⟩
  rw [afterReset_refusals] at hk
  cases hk

/-- The reset state is what the release leaves of a hard reset's (R173). -/
theorem reset_eq_released : State.reset = effect .resetDeassert (afterReset State.reset) := rfl

/-- Settles O5: a hard reset meets every law, and the release keeps each. -/
theorem resetMeetsTheLaws : Obligations.ResetMeetsTheLaws := by
  have hstore := afterReset_storeLaw State.reset
  unfold Obligations.ResetMeetsTheLaws
  rw [reset_eq_released]
  exact ⟨effect_creditLaw _ (afterReset_creditLaw _), effect_configLaw _ (afterReset_configLaw _),
    effect_entryLaw _ (afterReset_entryLaw _), effect_quiescentLaw _ (afterReset_quiescentLaw _),
    effect_faultListLaw _ (afterReset_faultListLaw _), effect_partLaw _ (partLaw_of_part (.inl rfl)),
    effect_mergeLaw _ (afterReset_mergeLaw _), effect_storeLaw _ hstore,
    effect_queueLaw _ hstore (afterReset_queueLaw _), effect_tagLaw _ hstore (afterReset_tagLaw _)⟩

/-! ## The transitions of the part state (R161) -/

/-- How the empty conditions move a part that stood in `p`: it stays, or a DRAINING part is QUIESCENT with DRAINED raised,
or a RESTARTING part has completed its restart (R164, R170, R171). -/
def EmptyMoves (p : PartState) (t : State) : Prop :=
  t.part = p ∨
  (p = .draining ∧ t.part = .quiescent ∧ emptyConditions t = true ∧ t.causes.drained = true) ∨
  (p = .restarting ∧ t.part = .running ∧ emptyConditions t = true ∧ t.causes.restarted = true ∧ t.pointer = 0 ∧
    ∀ k : ClassId, t.balances[k] = ceiling t.active k)

theorem judgeEmpty_emptyMoves (s : State) : EmptyMoves s.part (judgeEmpty s) := by
  by_cases hn : NothingHeld s
  · have hs := nothingHeld_iff.1 hn
    have ht : emptyConditions (judgeEmpty s) = true := nothingHeld_iff.1 (nothingHeld_judgeEmpty.2 hn)
    cases hp : s.part with
    | running | quiescent => exact .inl (by simp only [judgeEmpty, hp])
    | draining =>
      rw [judgeEmpty_draining hp, if_pos hs] at ht ⊢
      exact .inr (.inl ⟨rfl, rfl, ht, rfl⟩)
    | restarting =>
      rw [judgeEmpty_restarting hp, if_pos hs] at ht ⊢
      exact .inr (.inr ⟨rfl, rfl, ht, rfl, rfl, get_tabulate _⟩)
  · rw [judgeEmpty_held hn]
    exact .inl rfl

/-- An event that leaves the part state until its end moves it by the empty conditions alone. -/
theorem conclude_emptyMoves {s u : State} {p : PartState} (part : u.part = p) :
    EmptyMoves p (conclude s u) := part ▸ judgeEmpty_emptyMoves (publish s u)

/-- An answer changes nothing that the part state rests on. -/
theorem answerMgmt_emptyMoves {s : State} {p : PartState} (h : EmptyMoves p s) (st : MgmtStatus) (v : Word) :
    EmptyMoves p (answerMgmt s st v) := h

theorem deliver_emptyMoves (s : State) : EmptyMoves s.part (deliver s) := by
  cases hs : s.responses with
  | nil => exact .inl (by simp only [deliver, hs])
  | cons ref rest =>
    obtain ⟨-, -, hpart⟩ := departed_frame s rest ref
    rw [deliver_eq hs]
    exact conclude_emptyMoves hpart

theorem complete_emptyMoves (s : State) (tag : Nat) (o : OpOutcome) : EmptyMoves s.part (complete s tag o) := by
  unfold complete
  split
  · unfold completeTag
    split
    · exact conclude_emptyMoves (by simp)
    · exact .inl (by simp)
    · exact .inl (by simp)
  · exact .inl (by simp)

theorem timeStep_emptyMoves (s : State) : EmptyMoves s.part (timeStep s) := by
  unfold timeStep
  exact conclude_emptyMoves (by simp)

theorem commitPart_emptyMoves (s : State) : EmptyMoves s.part (commitPart s) := by
  have hvalidate : EmptyMoves s.part (validateAndCommit s) := by
    unfold validateAndCommit
    split
    · exact .inl (by simp)
    · have hjudged : (commitJudged s).part = s.part := by simp [commitJudged]
      exact answerMgmt_emptyMoves (conclude_emptyMoves hjudged) _ _
  unfold commitPart
  split
  case h_1 => exact .inl (by simp)
  all_goals exact hvalidate

/-- Every command but a hard reset, DRAIN, RESUME and RESTART moves the part state by the empty conditions alone. -/
theorem effect_emptyMoves {c : Instr} (s : State) (reset : c ≠ .hardReset) (drain : c ≠ .drain) (resume : c ≠ .resume)
    (restart : c ≠ .restart) : EmptyMoves s.part (effect c s) := by
  cases c with
  | hardReset => exact absurd rfl reset
  | drain => exact absurd rfl drain
  | resume => exact absurd rfl resume
  | restart => exact absurd rfl restart
  | delivery => exact deliver_emptyMoves s
  | completion tag st line => exact complete_emptyMoves s tag _
  | timeBaseStep => exact timeStep_emptyMoves s
  | responseTimeout τ => exact conclude_emptyMoves (by simp)
  | commit => exact commitPart_emptyMoves s
  | presentation _ | grant | drainGrant | hold _ | refillExpiry | aged _ | urgentEpisode _ | resetDeassert | shortFrame
  | unknownCommand _ | readItem _ | writeItem _ _ | discardStaged | takeFault | ackAlert _ | clearCounters | status _ =>
    exact .inl (by simp [effect])

/-- In RESTARTING no command but a hard reset changes the active set: a COMMIT answers BUSY (R162). -/
theorem effect_active_of_restarting {c : Instr} {s : State} (hs : s.part = .restarting) (reset : c ≠ .hardReset) :
    (effect c s).active = s.active := by
  cases c with
  | hardReset => exact absurd rfl reset
  | commit =>
    have hbusy : effect .commit s = answerMgmt s .busy 0 := by simp only [effect, commitPart, hs]
    simp only [hbusy, answerMgmt_frame]
  | _ => simp [effect]

/-- DRAIN moves a RUNNING part to DRAINING, where the empty conditions are judged, and no other (R163). -/
theorem drainPart_moves (s : State) :
    (s.part = .running ∧ EmptyMoves .draining (drainPart s)) ∨ (drainPart s).part = s.part := by
  have hdemanded : (demandAll (setPart s .draining)).part = .draining := by simp
  unfold drainPart
  split
  · next hs => exact .inl ⟨hs, answerMgmt_emptyMoves (hdemanded ▸ judgeEmpty_emptyMoves _) _ _⟩
  all_goals exact .inr (by simp)

/-- RESUME leaves a RESTARTING part as it stands, and any other RUNNING (R162, R166). -/
theorem resumePart_moves (s : State) :
    (s.part ≠ .restarting ∧ (resumePart s).part = .running) ∨ (resumePart s).part = s.part := by
  unfold resumePart
  split
  case h_2 hs | h_3 hs => exact .inl ⟨by rw [hs]; nofun, by simp⟩
  all_goals exact .inr (by simp)

/-- RESTART moves a part to RESTARTING, where the empty conditions are judged (R162, R167, R170). -/
theorem restartPart_moves (s : State) :
    (s.part ≠ .restarting ∧ EmptyMoves .restarting (restartPart s)) ∨ (restartPart s).part = s.part := by
  by_cases hs : s.part = .restarting
  · rw [restartPart_busy hs]
    exact .inr (by simp)
  · have hrestarted : (restarted s).part = .restarting := by simp [restarted]
    rw [restartPart_eq hs]
    exact .inl ⟨hs, answerMgmt_emptyMoves (conclude_emptyMoves hrestarted) _ _⟩

/-- The moves of the part state from `s` to `t` by a command, one constructor for each cause: the empty conditions, a hard
reset, and the commands of Regulator Control (R161). -/
inductive PartMove (s t : State) : Instr → Prop
  | stays {c : Instr} (part : t.part = s.part) : PartMove s t c
  | empty {c : Instr} (moves : EmptyMoves s.part t) (active : s.part = .restarting → t.active = s.active) :
      PartMove s t c
  | reset (part : t.part = .running) : PartMove s t .hardReset
  | drain (from_running : s.part = .running) (moves : EmptyMoves .draining t) : PartMove s t .drain
  | resume (taken : s.part ≠ .restarting) (part : t.part = .running) : PartMove s t .resume
  | restart (taken : s.part ≠ .restarting) (moves : EmptyMoves .restarting t) : PartMove s t .restart

theorem effect_partMove (c : Instr) (s : State) : PartMove s (effect c s) c := by
  cases c with
  | hardReset => exact .reset rfl
  | drain =>
    rcases drainPart_moves s with ⟨hs, hmoves⟩ | hstays
    · exact .drain hs hmoves
    · exact .stays hstays
  | resume =>
    rcases resumePart_moves s with ⟨hs, hpart⟩ | hstays
    · exact .resume hs hpart
    · exact .stays hstays
  | restart =>
    rcases restartPart_moves s with ⟨hs, hmoves⟩ | hstays
    · exact .restart hs hmoves
    · exact .stays hstays
  | _ => exact .empty (effect_emptyMoves s nofun nofun nofun nofun) fun hs => effect_active_of_restarting hs nofun

/-- Settles O49: every move has one of its causes, and each cause makes only the moves that R161 gives it. -/
theorem partStateTransitions : Obligations.PartStateTransitions := by
  intro c s t h
  have hmove : PartMove s t c := by
    rcases exec_eq_next h with ⟨-, rfl⟩ | rfl
    · exact .stays rfl
    · exact effect_partMove c s
  cases hmove with
  | stays hpart =>
    rw [hpart]
    cases s.part <;> trivial
  | empty hmoves hactive =>
    rcases hmoves with hpart | ⟨hs, ht, hempty, hdrained⟩ | ⟨hs, ht, hempty, hrestarted, hpointer, hbalances⟩
    · rw [hpart]
      cases s.part <;> trivial
    · rw [hs, ht]
      exact ⟨hempty, hdrained⟩
    · rw [hs, ht, ← hactive hs]
      exact .inr ⟨hempty, hrestarted, hpointer, hbalances⟩
  | reset ht =>
    rw [ht]
    cases s.part with
    | running => trivial
    | draining | quiescent => exact .inr (.inr rfl)
    | restarting => exact .inl rfl
  | drain hs hmoves =>
    rcases hmoves with ht | ⟨-, ht, hempty, hdrained⟩ | ⟨hnot, -⟩
    · rw [hs, ht]
    · rw [hs, ht]
      exact ⟨rfl, hempty, hdrained⟩
    · cases hnot
  | resume hs ht =>
    rw [ht]
    cases hp : s.part with
    | running => trivial
    | draining | quiescent => exact .inl rfl
    | restarting => exact absurd hp hs
  | restart hs hmoves =>
    rcases hmoves with ht | ⟨hnot, -⟩ | ⟨-, ht, -⟩
    · rw [ht]
      cases hp : s.part with
      | running | draining | quiescent => rfl
      | restarting => exact absurd hp hs
    · cases hnot
    · rw [ht]
      cases hp : s.part with
      | running => trivial
      | draining | quiescent => exact .inr (.inl rfl)
      | restarting => exact absurd hp hs

end Sys2Proof.Machine

/-! PROOFS. The management port and the staged tables: the frames and the item map, the commands that read and write
items, COMMIT with its judgements, the fault readout, the alert causes, the status words, DRAIN and RESUME. -/

namespace Sys2Proof.Machine

-- One proof at a time: elaborated in parallel they need more memory than the check has.
set_option Elab.async false

/-! ## Frames (R174, R175, R194) -/

/-- The four value bytes, big-endian, are the value. -/
theorem append_extractLsb'_value (value : Word) : value.extractLsb' 24 8 ++ value.extractLsb' 16 8 ++
    value.extractLsb' 8 8 ++ value.extractLsb' 0 8 = value := by
  rw [BitVec.extractLsb'_append_extractLsb'_eq_extractLsb' (start₂ := 24) rfl,
    BitVec.extractLsb'_append_extractLsb'_eq_extractLsb' (start₂ := 16) rfl,
    BitVec.extractLsb'_append_extractLsb'_eq_extractLsb' (start₂ := 8) rfl]
  exact BitVec.extractLsb'_eq_self

/-- The bytes after the seventh are ignored, and the seven are read back (R174). -/
theorem decodeFrame_frameBytes (code : Byte) (item : BitVec 16) (value : Word) (more : List Byte) :
    decodeFrame (frameBytes code item value ++ more) = decodeCommand code item value := by
  show decodeCommand code (item.extractLsb' 8 8 ++ item.extractLsb' 0 8) (value.extractLsb' 24 8 ++
    value.extractLsb' 16 8 ++ value.extractLsb' 8 8 ++ value.extractLsb' 0 8) = _
  rw [BitVec.extractLsb'_append_extractLsb' (w := 8) (len := 8), append_extractLsb'_value]

/-- A code that is none of the known ones carries no known command (R176). -/
theorem decodeCommand_unknown {code : Byte} (h : code ∉ knownCodes) (item : BitVec 16) (value : Word) :
    decodeCommand code item value = .unknownCommand code := by
  simp only [knownCodes, List.mem_cons, List.not_mem_nil, or_false, not_or] at h
  obtain ⟨h₁, h₂, h₃, h₄, h₅, h₆, h₇, h₈, h₉, h₁₀, h₁₁⟩ := h
  rw [decodeCommand, if_neg h₁, if_neg h₂, if_neg h₃, if_neg h₄, if_neg h₅, if_neg h₆, if_neg h₇, if_neg h₈,
    if_neg h₉, if_neg h₁₀, if_neg h₁₁]

/-- The frame of a management command has its code, and the item and value that the code's command reads. -/
theorem encodeFrame_eq_some {c : Instr} {bytes : List Byte} (wf : c.wellFormed = true)
    (h : encodeFrame c = some bytes) :
    ∃ code item value, bytes = frameBytes code item value ∧ decodeCommand code item value = c := by
  cases c with
  | unknownCommand code =>
    cases h
    refine ⟨code, 0, 0, rfl, decodeCommand_unknown (fun hmem => ?_) 0 0⟩
    rw [Instr.wellFormed, List.contains_iff_mem.2 hmem] at wf
    cases wf
  | readItem _ | writeItem _ _ | commit | discardStaged | drain | resume | restart | takeFault | ackAlert _
  | clearCounters | status _ =>
    cases h
    exact ⟨_, _, _, rfl, rfl⟩
  | _ => cases h

theorem decodeFrame_short {bytes : List Byte} (h : bytes.length < 7) : decodeFrame bytes = .shortFrame := by
  unfold decodeFrame
  split
  · simp only [List.length_cons] at h
    omega
  · rfl

/-- A complete frame carries the command of its code. -/
theorem decodeFrame_complete {bytes : List Byte} (h : 7 ≤ bytes.length) :
    ∃ code item value, decodeFrame bytes = decodeCommand code item value := by
  match bytes, h with
  | _ :: _ :: _ :: _ :: _ :: _ :: _ :: _, _ => exact ⟨_, _, _, rfl⟩

/-- Every code decodes to a well-formed command that has a frame. -/
theorem decodeCommand_wellFormed (code : Byte) (item : BitVec 16) (value : Word) :
    (decodeCommand code item value).wellFormed = true ∧
      (encodeFrame (decodeCommand code item value)).isSome = true := by
  by_cases h : code ∈ knownCodes
  · simp only [knownCodes, List.mem_cons, List.not_mem_nil, or_false] at h
    rcases h with rfl | rfl | rfl | rfl | rfl | rfl | rfl | rfl | rfl | rfl | rfl <;> exact ⟨rfl, rfl⟩
  · rw [decodeCommand_unknown h]
    refine ⟨?_, rfl⟩
    rw [Instr.wellFormed, List.contains_eq_mem, decide_eq_false h]
    rfl

/-! ## The bits of a select (R174, R175) -/

/-- A byte with a bit put behind it, while there is room. -/
theorem toNat_shiftIn {x : Byte} (h : x.toNat < 128) (bit : Bool) :
    (x * 2 + (if bit then 1 else 0)).toNat = 2 * x.toNat + bit.toNat := by
  have htwo : (2 : Byte).toNat = 2 := rfl
  have hbit : (if bit then (1 : Byte) else 0).toNat = bit.toNat := by cases bit <;> rfl
  have hle := bit.toNat_le
  rw [BitVec.toNat_add, BitVec.toNat_mul, htwo, hbit]
  omega

/-- The first bits of a byte, the most significant first, are what stands above the others. -/
theorem foldl_bits_eq (b : Byte) {n : Nat} (h : n ≤ 8) :
    ((List.range n).map (fun j => b.getLsbD (7 - j))).foldl
      (fun (acc : Byte) bit => acc * 2 + (if bit then 1 else 0)) 0 = b >>> (8 - n) := by
  induction n with
  | zero => exact (BitVec.ushiftRight_eq_zero le_rfl).symm
  | succ n ih =>
    have hplace : 8 - n = (7 - n) + 1 := by omega
    have hnext : 8 - (n + 1) = 7 - n := by omega
    have hhalf : (b >>> (8 - n)).toNat = (b >>> (7 - n)).toNat / 2 := by
      rw [hplace, BitVec.toNat_ushiftRight, BitVec.toNat_ushiftRight, Nat.shiftRight_succ]
    have hbit : (b.getLsbD (7 - n)).toNat = (b >>> (7 - n)).toNat % 2 := by
      rw [BitVec.getLsbD, Nat.toNat_testBit, BitVec.toNat_ushiftRight, Nat.shiftRight_eq_div_pow]
    have hlt := (b >>> (7 - n)).isLt
    rw [List.range_succ, List.map_append, List.foldl_append, ih (by omega), hnext]
    apply BitVec.eq_of_toNat_eq
    rw [List.map_singleton, List.foldl_cons, List.foldl_nil, toNat_shiftIn (by omega), hhalf, hbit]
    omega

theorem byteOfBits_bitsOfByte (b : Byte) : byteOfBits (bitsOfByte b) = b := by
  rw [byteOfBits, bitsOfByte, foldl_bits_eq b le_rfl]
  exact BitVec.ushiftRight_zero b

theorem bytesOfBits_short {bits : List Bool} (h : bits.length < 8) : bytesOfBits bits = [] := by
  unfold bytesOfBits
  split
  · simp only [List.length_cons] at h
    omega
  · rfl

/-- Eight bits in front are the byte that they make. -/
theorem bytesOfBits_bitsOfByte (b : Byte) (bits : List Bool) :
    bytesOfBits (bitsOfByte b ++ bits) = b :: bytesOfBits bits := by
  have hcons : bytesOfBits (bitsOfByte b ++ bits) = byteOfBits (bitsOfByte b) :: bytesOfBits bits := rfl
  rw [hcons, byteOfBits_bitsOfByte]

/-- The bits of bytes are read back as the bytes, and those of a byte left in the middle are discarded. -/
theorem bytesOfBits_flatMap (bytes : List Byte) {left : List Bool} (h : left.length < 8) :
    bytesOfBits (bytes.flatMap bitsOfByte ++ left) = bytes := by
  induction bytes with
  | nil => exact bytesOfBits_short h
  | cons b bytes ih => rw [List.flatMap_cons, List.append_assoc, bytesOfBits_bitsOfByte, ih]

/-! ## The answer on MDO (R174, R194) -/

theorem mdoByte_value (a : MgmtAnswer) (n : Fin 4) : mdoByte a (8 + n) = a.value.extractLsb' (8 * (3 - n)) 8 := by
  fin_cases n <;> rfl

theorem mdoByte_zero {n : Nat} (h : n < 7 ∨ 12 ≤ n) (a : MgmtAnswer) : mdoByte a n = 0 := by
  unfold mdoByte
  split
  · rfl
  · exact List.getD_eq_default _ _ (by simp only [answerBytes, List.length_cons, List.length_nil]; omega)

/-- Settles O6: a frame's fields, its bits, and its answer. -/
theorem frameDecodesWhatItEncodes : Obligations.FrameDecodesWhatItEncodes := by
  refine ⟨fun c bytes more wf h => ?_, fun _ => decodeFrame_short, fun bytes h => ?_, fun bytes left h => ?_,
    fun a => ⟨?_, fun n => ?_, fun _ h => mdoByte_zero h a⟩⟩
  · obtain ⟨code, item, value, rfl, hc⟩ := encodeFrame_eq_some wf h
    exact ⟨rfl, (decodeFrame_frameBytes code item value more).trans hc⟩
  · obtain ⟨code, item, value, hcommand⟩ := decodeFrame_complete h
    rw [hcommand]
    exact decodeCommand_wellFormed code item value
  · rw [decodeSelect, bytesOfBits_flatMap bytes h]
  · show (statusCode a.status).toNat = _
    cases a.status <;> rfl
  · rw [mdoByte_value, BitVec.extractLsb'_toNat, Nat.shiftRight_eq_div_pow, pow_mul]
    rfl

/-! ## Frames that carry no known command (R175, R176) -/

/-- Settles O16: each is one update of the state. -/
theorem framesWithoutACommand : Obligations.FramesWithoutACommand :=
  fun _ hr => ⟨exec_released hr, fun _ => exec_released hr⟩

/-! ## The numbers of the staged items (R194) -/

theorem rangeFieldAt_eq_some {n : Nat} {f : RangeField} : rangeFieldAt n = some f ↔ n = rangeOffset f := by
  constructor
  · intro h
    unfold rangeFieldAt at h
    split at h <;> cases h <;> rfl
  · rintro rfl
    cases f <;> rfl

theorem attrFieldAt_eq_some {n : Nat} {f : AttrField} : attrFieldAt n = some f ↔ n = attrOffset f := by
  constructor
  · intro h
    unfold attrFieldAt at h
    split at h <;> cases h <;> rfl
  · rintro rfl
    cases f <;> rfl

theorem classFieldAt_eq_some {n : Nat} {f : ClassField} : classFieldAt n = some f ↔ n = classOffset f := by
  constructor
  · intro h
    unfold classFieldAt at h
    split at h <;> cases h <;> rfl
  · rintro rfl
    cases f <;> rfl

theorem rangeOffset_lt (f : RangeField) : rangeOffset f < 5 := by cases f <;> decide

theorem attrOffset_bounds (f : AttrField) : 5 ≤ attrOffset f ∧ attrOffset f < 11 := by cases f <;> decide

theorem classOffset_lt (f : ClassField) : classOffset f < 7 := by cases f <;> decide

theorem rangeFieldAt_attrOffset (f : AttrField) : rangeFieldAt (attrOffset f) = none := by cases f <;> rfl

theorem stagedNumber_bounds (it : StagedItem) : 0x1000 ≤ stagedNumber it ∧ stagedNumber it ≤ 0x1504 := by
  cases it with
  | windowRange w f => have := rangeOffset_lt f; simp only [stagedNumber]; omega
  | windowAttr w f => have := attrOffset_bounds f; simp only [stagedNumber]; omega
  | dfltAttr f => have := attrOffset_bounds f; simp only [stagedNumber]; omega
  | cls k f => have := classOffset_lt f; simp only [stagedNumber]; omega
  | _ => simp only [stagedNumber]; omega

/-- The number of a staged item names it. -/
theorem stagedItemAt_stagedNumber (it : StagedItem) : stagedItemAt (stagedNumber it) = some it := by
  cases it with
  | initiatorEnabled i =>
    have hi : (0x1000 + 2 * i.val - 0x1000) / 2 % 32 = i := by omega
    simp only [stagedNumber, stagedItemAt, hi]
    simp (disch := omega) only [if_neg, if_pos]
  | initiatorGroup i =>
    have hi : (0x1001 + 2 * i.val - 0x1000) / 2 % 32 = i := by omega
    simp only [stagedNumber, stagedItemAt, hi]
    simp (disch := omega) only [if_neg, if_pos]
  | classMap g u =>
    have hg : (0x1100 + 8 * g.val + u.val - 0x1100) / 8 % 4 = g := by omega
    have hu : (0x1100 + 8 * g.val + u.val) % 8 = u := by omega
    simp only [stagedNumber, stagedItemAt, hg, hu]
    simp (disch := omega) only [if_neg, if_pos]
  | windowRange w f =>
    have hf := rangeOffset_lt f
    have hw : (0x1200 + 16 * w.val + rangeOffset f - 0x1200) / 16 % 16 = w := by omega
    have hfield : (0x1200 + 16 * w.val + rangeOffset f) % 16 = rangeOffset f := by omega
    simp only [stagedNumber, stagedItemAt, hw, hfield, rangeFieldAt_eq_some.2 rfl]
    simp (disch := omega) only [if_neg, if_pos]
  | windowAttr w f =>
    have hf := attrOffset_bounds f
    have hw : (0x1200 + 16 * w.val + attrOffset f - 0x1200) / 16 % 16 = w := by omega
    have hfield : (0x1200 + 16 * w.val + attrOffset f) % 16 = attrOffset f := by omega
    simp only [stagedNumber, stagedItemAt, hw, hfield, rangeFieldAt_attrOffset, attrFieldAt_eq_some.2 rfl]
    simp (disch := omega) only [if_neg, if_pos]
    rfl
  | dfltAttr f => cases f <;> rfl
  | cls k f =>
    have hf := classOffset_lt f
    have hk : (0x1400 + 16 * k.val + classOffset f - 0x1400) / 16 % 6 = k := by omega
    have hfield : (0x1400 + 16 * k.val + classOffset f) % 16 = classOffset f := by omega
    simp only [stagedNumber, stagedItemAt, hk, hfield, classFieldAt_eq_some.2 rfl]
    simp (disch := omega) only [if_neg, if_pos]
    rfl
  | dfltEnabled | refillPeriod | responseTimeout | holdLimit | mergeReserve | alertMask => rfl

/-- A number names the staged item that has it, and no other. -/
theorem stagedNumber_of_stagedItemAt {n : Nat} {it : StagedItem} (h : stagedItemAt n = some it) :
    stagedNumber it = n := by
  unfold stagedItemAt at h
  split at h
  · cases h
  split at h
  · -- initiators
    dsimp only at h
    split at h <;> cases h <;> simp only [stagedNumber] <;> omega
  split at h
  · cases h
  split at h
  · -- the Class Map
    cases h
    simp only [stagedNumber]
    omega
  split at h
  · cases h
  split at h
  · -- windows
    dsimp only at h
    split at h
    · next f hf =>
      have hfield := rangeFieldAt_eq_some.1 hf
      cases h
      simp only [stagedNumber]
      omega
    · obtain ⟨f, hf, rfl⟩ := Option.map_eq_some_iff.1 h
      have hfield := attrFieldAt_eq_some.1 hf
      simp only [stagedNumber]
      omega
  split at h
  · -- the default window
    split at h
    · next hn =>
      cases h
      exact hn.symm
    · obtain ⟨f, hf, rfl⟩ := Option.map_eq_some_iff.1 h
      have hfield := attrFieldAt_eq_some.1 hf
      simp only [stagedNumber]
      omega
  split at h
  · cases h
  split at h
  · -- classes
    obtain ⟨f, hf, rfl⟩ := Option.map_eq_some_iff.1 h
    have hfield := classFieldAt_eq_some.1 hf
    simp only [stagedNumber]
    omega
  · -- the single items
    split at h <;> cases h <;> rfl

/-! ## What an item number names (R176, R194) -/

theorem itemAt_low {n : Nat} (h : n < 0x1000) : itemAt (BitVec.ofNat 16 n) = lowItemAt n := by
  have hn : (BitVec.ofNat 16 n).toNat = n := by rw [BitVec.toNat_ofNat]; omega
  simp only [itemAt, hn, if_pos h]

theorem itemAt_staged (it : StagedItem) : itemAt (BitVec.ofNat 16 (stagedNumber it)) = some (.staged it) := by
  obtain ⟨hlow, hhigh⟩ := stagedNumber_bounds it
  have hn : (BitVec.ofNat 16 (stagedNumber it)).toNat = stagedNumber it := by rw [BitVec.toNat_ofNat]; omega
  have hmirror : stagedNumber it < Config.mirrorOffset := Nat.lt_of_le_of_lt hhigh (by decide)
  simp only [itemAt, hn, stagedItemAt_stagedNumber]
  rw [if_neg (by omega), if_pos hmirror]
  rfl

theorem itemAt_mirror (it : StagedItem) :
    itemAt (BitVec.ofNat 16 (stagedNumber it + 0x4000)) = some (.mirror it) := by
  obtain ⟨hlow, hhigh⟩ := stagedNumber_bounds it
  have hn : (BitVec.ofNat 16 (stagedNumber it + 0x4000)).toNat = stagedNumber it + 0x4000 :=
    by rw [BitVec.toNat_ofNat]; omega
  have hoffset : Config.mirrorOffset = 0x4000 := rfl
  simp only [itemAt, hn, hoffset, Nat.add_sub_cancel, stagedItemAt_stagedNumber]
  rw [if_neg (by omega), if_neg (by omega)]
  rfl

theorem windowRange_itemIs (w : WindowId) (f : RangeField) :
    ItemIs (.windowRange w f) (0x1200 + rangeOffset f + 0x10 * w) (fun c => rangeValue c.windows[w] f) :=
  ⟨Nat.add_right_comm .., fun _ => rfl⟩

theorem windowAttr_itemIs (w : WindowId) (f : AttrField) :
    ItemIs (.windowAttr w f) (0x1200 + attrOffset f + 0x10 * w) (fun c => attrValue c.windows[w].attrs f) :=
  ⟨Nat.add_right_comm .., fun _ => rfl⟩

theorem cls_itemIs (k : ClassId) (f : ClassField) :
    ItemIs (.cls k f) (0x1400 + classOffset f + 0x10 * k) (fun c => classValue c.classes[k] f) :=
  ⟨Nat.add_right_comm .., fun _ => rfl⟩

theorem dfltAttr_itemIs (f : AttrField) :
    ItemIs (.dfltAttr f) (0x1300 + attrOffset f) (fun c => attrValue c.dfltWindow.attrs f) := ⟨rfl, fun _ => rfl⟩

/-- Settles O7: the numbers name their items both ways, and each number and field is its definition's own. -/
theorem itemNumbersRoundTrip : Obligations.ItemNumbersRoundTrip :=
  ⟨stagedItemAt_stagedNumber, fun _ _ => stagedNumber_of_stagedItemAt, stagedNumber_bounds,
    fun it => ⟨itemAt_staged it, itemAt_mirror it⟩, fun _ => ⟨⟨rfl, fun _ => rfl⟩, ⟨rfl, fun _ => rfl⟩⟩,
    fun _ _ => ⟨rfl, fun _ => rfl⟩,
    fun w => ⟨windowRange_itemIs w .enabled, windowRange_itemIs w .baseHi, windowRange_itemIs w .baseLo,
      windowRange_itemIs w .limitHi, windowRange_itemIs w .limitLo, windowAttr_itemIs w .access,
      windowAttr_itemIs w .mode, windowAttr_itemIs w .forwarding, windowAttr_itemIs w .policy,
      windowAttr_itemIs w .classValue, windowAttr_itemIs w .faultPolicy⟩,
    ⟨rfl, fun _ => rfl⟩, dfltAttr_itemIs .access, dfltAttr_itemIs .mode, dfltAttr_itemIs .forwarding,
    dfltAttr_itemIs .policy, dfltAttr_itemIs .classValue, dfltAttr_itemIs .faultPolicy,
    fun k => ⟨cls_itemIs k .reservation, cls_itemIs k .cap, cls_itemIs k .metered, cls_itemIs k .ceiling,
      cls_itemIs k .refill, cls_itemIs k .hardCap, cls_itemIs k .latencyLimit⟩,
    ⟨rfl, fun _ => rfl⟩, ⟨rfl, fun _ => rfl⟩, ⟨rfl, fun _ => rfl⟩, ⟨rfl, fun _ => rfl⟩, ⟨rfl, fun _ => rfl⟩, rfl⟩

/-! ## The items below the staged ones (R194) -/

theorem lowItemAt_fault (f : Fin 8) : lowItemAt (0x10 + f) = (readoutFieldAt f).map .fault := by
  have hf : 0x10 + f.val - 0x10 = f := by omega
  simp only [lowItemAt, hf]
  simp (disch := omega) only [if_neg, if_pos]

theorem lowItemAt_balance (k : ClassId) : lowItemAt (0x20 + k) = some (.balance k) := by
  have hk : (0x20 + k.val - 0x20) % 6 = k := by omega
  simp only [lowItemAt, hk]
  simp (disch := omega) only [if_neg, if_pos]

theorem lowItemAt_classCounter (k : ClassId) (j : Fin 5) :
    lowItemAt (0x100 + 16 * k + j) = (classCounterAt j).map (.classCounter k) := by
  have hk : (0x100 + 16 * k.val + j.val - 0x100) / 16 % 6 = k := by omega
  have hj : (0x100 + 16 * k.val + j.val) % 16 = j := by omega
  simp only [lowItemAt, hk, hj]
  simp (disch := omega) only [if_neg, if_pos]

theorem lowItemAt_globalCounter (j : Fin 12) : lowItemAt (0x180 + j) = (globalCounterAt j).map .globalCounter := by
  have hj : 0x180 + j.val - 0x180 = j := by omega
  simp only [lowItemAt, hj]
  simp (disch := omega) only [if_neg, if_pos]

/-- Each offset below 5 is a counter of a class, with the value that the item shows. -/
theorem classCounterAt_item (j : Fin 5) :
    ∃ x, classCounterAt j = some x ∧ ∀ c, classCounterValue c x = classCounterItem c j := by
  fin_cases j <;> exact ⟨_, rfl, fun _ => rfl⟩

theorem globalCounterAt_item (j : Fin 12) :
    ∃ x, globalCounterAt j = some x ∧ ∀ c, globalCounterValue c x = globalCounterItem c j := by
  fin_cases j <;> exact ⟨_, rfl, fun _ => rfl⟩

theorem classCounterAt_lt {n : Nat} {x : ClassCounter} (h : classCounterAt n = some x) : n < 5 := by
  unfold classCounterAt at h
  split at h <;> cases h <;> decide

theorem globalCounterAt_lt {n : Nat} {x : GlobalCounter} (h : globalCounterAt n = some x) : n < 12 := by
  unfold globalCounterAt at h
  split at h <;> cases h <;> decide

/-- The numbers below 0x1000 that name an item. -/
def LowNumber (n : Nat) : Prop :=
  n ≤ 1 ∨ n = 4 ∨ n = 8 ∨ (0x10 ≤ n ∧ n ≤ 0x17) ∨ (0x20 ≤ n ∧ n ≤ 0x25) ∨
    (∃ (k : ClassId) (j : Fin 5), n = 0x100 + 16 * k + j) ∨ (0x180 ≤ n ∧ n ≤ 0x18B)

theorem lowNumber_of_lowItemAt {n : Nat} {x : Item} (h : lowItemAt n = some x) : LowNumber n := by
  unfold lowItemAt at h
  unfold LowNumber
  by_cases hsingle : n ≤ 1 ∨ n = 4 ∨ n = 8
  · omega
  simp (disch := omega) only [if_neg] at h
  split at h
  · cases h
  split at h
  · omega
  split at h
  · cases h
  split at h
  · omega
  split at h
  · cases h
  split at h
  · obtain ⟨c, hc, -⟩ := Option.map_eq_some_iff.1 h
    have hj := classCounterAt_lt hc
    exact .inr (.inr (.inr (.inr (.inr (.inl
      ⟨⟨(n - 0x100) / 16, by omega⟩, ⟨n % 16, hj⟩, by simp only; omega⟩)))))
  split at h
  · cases h
  split at h
  · obtain ⟨c, hc, -⟩ := Option.map_eq_some_iff.1 h
    have hj := globalCounterAt_lt hc
    omega
  · cases h

/-- The number of an item stands in R194's table. -/
theorem number_of_itemAt {n : BitVec 16} {x : Item} (h : itemAt n = some x) :
    LowNumber n.toNat ∨ ∃ it, n.toNat = stagedNumber it ∨ n.toNat = stagedNumber it + 0x4000 := by
  have hoffset : Config.mirrorOffset = 0x4000 := rfl
  unfold itemAt at h
  dsimp only at h
  rw [hoffset] at h
  split at h
  · exact .inl (lowNumber_of_lowItemAt h)
  split at h
  · obtain ⟨it, hit, -⟩ := Option.map_eq_some_iff.1 h
    exact .inr ⟨it, .inl (stagedNumber_of_stagedItemAt hit).symm⟩
  · obtain ⟨it, hit, -⟩ := Option.map_eq_some_iff.1 h
    have hnumber := stagedNumber_of_stagedItemAt hit
    exact .inr ⟨it, .inr (by omega)⟩

/-! ## READ_ITEM (R178) -/

/-- A read changes nothing but at status word 0. -/
theorem exec_readItem {s : State} (hr : s.resetLine = false) {n : BitVec 16} {x : Item} (h : itemAt n = some x)
    (hx : x ≠ .statusWord0) :
    exec (.readItem n) s = .next { s with mgmt := some { status := .done, value := readValue s x } } := by
  have hread : readItem s n = readAnswered s x := by simp only [readItem, h]
  have hafter : afterRead s x = s := by
    cases x with
    | statusWord0 => exact absurd rfl hx
    | _ => rfl
  rw [exec_released hr, effect, hread, readAnswered, hafter]
  rfl

theorem exec_readItem_low {s : State} (hr : s.resetLine = false) {n : Nat} {x : Item} (hn : n < 0x1000)
    (h : lowItemAt n = some x) (hx : x ≠ .statusWord0) :
    exec (.readItem (BitVec.ofNat 16 n)) s =
      .next { s with mgmt := some { status := .done, value := readValue s x } } :=
  exec_readItem hr ((itemAt_low hn).trans h) hx

theorem exec_readItem_fault {s : State} (hr : s.resetLine = false) {f : Fin 8} {x : ReadoutField}
    (h : readoutFieldAt f = some x) : exec (.readItem (BitVec.ofNat 16 (0x10 + f))) s =
      .next { s with mgmt := some { status := .done, value := readoutValue s.readout x } } :=
  exec_readItem_low (x := .fault x) hr (by omega) ((lowItemAt_fault f).trans (by rw [h]; rfl)) nofun

/-- Settles O8: READ_ITEM by what the item number names, and the numbers that name nothing. -/
theorem readItemReturnsTheItem : Obligations.ReadItemReturnsTheItem := by
  intro s hr reads
  refine ⟨exec_released hr, exec_readItem_low (n := 1) (x := .statusWord1) hr (by omega) rfl nofun,
    exec_readItem_low (n := 4) (x := .timeBase) hr (by omega) rfl nofun,
    exec_readItem_low (n := 8) (x := .alertPending) hr (by omega) rfl nofun, fun f x hx => exec_readItem_fault hr hx,
    fun k => exec_readItem_low hr (by omega) (lowItemAt_balance k) nofun, fun k j => ?_, fun j => ?_,
    fun it => exec_readItem hr (itemAt_staged it) nofun, fun it => exec_readItem hr (itemAt_mirror it) nofun,
    fun n hn => ?_⟩
  · obtain ⟨x, hx, hvalue⟩ := classCounterAt_item j
    have hitem := (lowItemAt_classCounter k j).trans (congrArg _ hx)
    show exec _ s = _
    rw [exec_readItem_low hr (by omega) hitem nofun, readValue, hvalue]
  · obtain ⟨x, hx, hvalue⟩ := globalCounterAt_item j
    have hitem := (lowItemAt_globalCounter j).trans (congrArg _ hx)
    show exec _ s = _
    rw [exec_readItem_low hr (by omega) hitem nofun, readValue, hvalue]
  · have hnone : itemAt n = none := Option.eq_none_iff_forall_ne_some.2 fun x hx =>
      hn (by simpa only [LowNumber, or_assoc] using number_of_itemAt hx)
    have hread : readItem s n = answerMgmt s .badItem 0 := by simp only [readItem, hnone]
    rw [exec_released hr, effect, hread]
    rfl

/-! ## Storing into a staged item (R177, R179) -/

theorem attrValue_setAttr (a : WindowAttrs) (f g : AttrField) (v : Word) :
    attrValue (setAttr a f v) g = if g = f then v else attrValue a g := by
  cases f <;> cases g <;> rfl

theorem rangeValue_setRange (w : WindowItems) (f g : RangeField) (v : Word) :
    rangeValue (setRange w f v) g = if g = f then v else rangeValue w g := by
  cases f <;> cases g <;> rfl

theorem classValue_setClassItem (k : ClassItems) (f g : ClassField) (v : Word) :
    classValue (setClassItem k f v) g = if g = f then v else classValue k g := by
  cases f <;> cases g <;> rfl

theorem setRange_attrs (w : WindowItems) (f : RangeField) (v : Word) : (setRange w f v).attrs = w.attrs := by
  cases f <;> rfl

theorem rangeValue_attrs (w : WindowItems) (a : WindowAttrs) (f : RangeField) :
    rangeValue { w with attrs := a } f = rangeValue w f := by
  cases f <;> rfl

/-- An item stored holds the value, all 32 bits of it, and every other item what it held (R177). -/
theorem itemValue_setItem (c : ConfigSet) (it it' : StagedItem) (v : Word) :
    itemValue (setItem c it v) it' = if it' = it then v else itemValue c it' := by
  cases it with
  | initiatorEnabled i | initiatorGroup i =>
    cases it' with
    | initiatorEnabled j | initiatorGroup j => simp only [itemValue, setItem, get_put]; split <;> simp_all
    | _ => rfl
  | classMap g u =>
    cases it' with
    | classMap h w => simp only [itemValue, setItem, get_put]; split <;> simp_all [Fin.ext_iff]
    | _ => rfl
  | windowRange w f =>
    cases it' with
    | windowRange x g => simp only [itemValue, setItem, get_put]; split <;> simp_all [rangeValue_setRange]
    | windowAttr x g => simp only [itemValue, setItem, get_put]; split <;> simp_all [setRange_attrs]
    | _ => rfl
  | windowAttr w f =>
    cases it' with
    | windowRange x g => simp only [itemValue, setItem, get_put]; split <;> simp_all [rangeValue_attrs]
    | windowAttr x g => simp only [itemValue, setItem, get_put]; split <;> simp_all [attrValue_setAttr]
    | _ => rfl
  | dfltAttr f =>
    cases it' with
    | dfltAttr g => simp [itemValue, setItem, attrValue_setAttr]
    | _ => rfl
  | cls k f =>
    cases it' with
    | cls j g => simp only [itemValue, setItem, get_put]; split <;> simp_all [classValue_setClassItem]
    | _ => rfl
  | dfltEnabled | refillPeriod | responseTimeout | holdLimit | mergeReserve | alertMask => cases it' <;> rfl

/-! ## WRITE_ITEM (R179) -/

theorem writeItem_staged {s : State} {n : BitVec 16} {it : StagedItem} (h : itemAt n = some (.staged it)) (v : Word) :
    writeItem s n v = answerMgmt (setStaged s (setItem s.staged it v)) .done v := by
  simp only [writeItem, h]

theorem writeItem_readOnly {s : State} {n : BitVec 16} {x : Item} (h : itemAt n = some x) (hx : ∀ it, x ≠ .staged it)
    (v : Word) : writeItem s n v = answerMgmt s .readOnly 0 := by
  cases x with
  | staged it => exact absurd rfl (hx it)
  | _ => simp only [writeItem, h]

theorem writeItem_unknown {s : State} {n : BitVec 16} (h : itemAt n = none) (v : Word) :
    writeItem s n v = answerMgmt s .badItem 0 := by
  simp only [writeItem, h]

/-- Settles O9: WRITE_ITEM by what the item number names. -/
theorem writeItemStoresTheValue : Obligations.WriteItemStoresTheValue := by
  intro s v hr
  have hexec (n : BitVec 16) : exec (.writeItem n v) s = .next (writeItem s n v) := exec_released hr
  refine ⟨fun it => ?_, fun n x hn hx => (hexec n).trans (congrArg _ (writeItem_readOnly hn hx v)),
    fun n hn => (hexec n).trans (congrArg _ (writeItem_unknown hn v))⟩
  refine ⟨_, (hexec _).trans (congrArg _ (writeItem_staged (itemAt_staged it) v)), rfl, ?_, fun it' hne => ?_⟩
  · exact (itemValue_setItem s.staged it it v).trans (if_pos rfl)
  · exact (itemValue_setItem s.staged it it' v).trans (if_neg hne)

/-! ## COMMIT (R162, R181 to R183) -/

/-- The lowest failing item gives the answer's value (R182). -/
theorem lowestFailure_eq_some {c : ConfigSet} {x : StagedItem} (fails : ItemFails c x)
    (least : ∀ y, ItemFails c y → stagedNumber x ≤ stagedNumber y) : lowestFailure c = some (stagedNumber x) := by
  refine List.min?_eq_some_iff.2 ⟨List.mem_map_of_mem (mem_failures.2 fails), fun n hn => ?_⟩
  obtain ⟨y, hy, rfl⟩ := List.mem_map.1 hn
  exact least y (mem_failures.1 hy)

/-- A set of which no item fails has no lowest failing item (R182). -/
theorem lowestFailure_of_valid {c : ConfigSet} (h : ∀ x, ¬ ItemFails c x) : lowestFailure c = none := by
  have hnone : failures c = [] := List.eq_nil_iff_forall_not_mem.2 fun x hx => h x (mem_failures.1 hx)
  rw [lowestFailure, hnone]
  rfl

theorem commitPart_busy {s : State} (h : s.part = .restarting) : commitPart s = answerMgmt s .busy 0 := by
  simp only [commitPart, h]

theorem commitPart_taken {s : State} (h : s.part ≠ .restarting) : commitPart s = validateAndCommit s := by
  unfold commitPart
  split
  case h_1 hp => exact absurd hp h
  all_goals rfl

/-- Settles O11: validation finds the lowest failing item, and RESTARTING takes no COMMIT. -/
theorem commitRefused : Obligations.CommitRefused := by
  intro s hr
  have hexec : exec .commit s = .next (commitPart s) := exec_released hr
  refine ⟨fun it hp hfails hleast => ?_, fun hp => ?_⟩
  · rw [hexec, commitPart_taken hp, validateAndCommit, lowestFailure_eq_some hfails hleast]
    rfl
  · rw [hexec, commitPart_busy hp]
    rfl

/-! ## A COMMIT that passes: its judgements before the timeouts (R93, R94, R122, R183) -/

/-- A COMMIT once the staged set has been adopted and balances, urgency flags, AGED and PRESSURE have been judged,
before the timeouts. -/
def pressureJudged (s : State) : State :=
  judgePressure (judgeAllAged (judgeAllUrgency (clampBalances (adoptStaged s))))

theorem commitJudged_eq (s : State) : commitJudged s = judgeAllTimeouts (pressureJudged s) := rfl

theorem pressureJudged_frame (s : State) :
    (pressureJudged s).part = s.part ∧ (pressureJudged s).slots = s.slots ∧ (pressureJudged s).arrival = s.arrival ∧
    (pressureJudged s).lines = s.lines ∧ (pressureJudged s).pointer = s.pointer ∧
    (pressureJudged s).fences = s.fences ∧ (pressureJudged s).fenceOrder = s.fenceOrder ∧
    (pressureJudged s).faults = s.faults ∧ (pressureJudged s).overflow = s.overflow ∧
    (pressureJudged s).responses = s.responses ∧ (pressureJudged s).active = s.staged ∧
    (pressureJudged s).causes = s.causes ∧ (pressureJudged s).tags = s.tags ∧
    (pressureJudged s).timeBase = s.timeBase := by
  simp [pressureJudged, clampBalances, adoptStaged]

theorem pressureJudged_balances (s : State) (k : ClassId) :
    (pressureJudged s).balances[k] = min s.balances[k] (ceiling s.staged k) := by
  simp only [pressureJudged, judgePressure_frame, judgeAllAged_frame, judgeAllUrgency_frame]
  exact get_tabulate _ k

/-- AGED is judged before PRESSURE, both against the new set (R94, R183). -/
theorem pressureJudged_entries (s : State) : (pressureJudged s).entries =
    pressured s.staged.mergeReserve.toNat s.timeBase (agedEntries s.staged.holdLimit.toNat s.timeBase s.entries) := by
  have hbefore : (judgeAllUrgency (clampBalances (adoptStaged s))).active = s.staged ∧
      (judgeAllUrgency (clampBalances (adoptStaged s))).timeBase = s.timeBase ∧
      (judgeAllUrgency (clampBalances (adoptStaged s))).entries = s.entries := by
    simp [clampBalances, adoptStaged]
  obtain ⟨hactive, htime, hentries⟩ := hbefore
  rw [pressureJudged, judgePressure_entries, judgeAllAged_eq]
  simp only [setEntries_active, setEntries_timeBase, setEntries_entries, hactive, htime, hentries]

theorem pressureJudged_counters (s : State) :
    (pressureJudged s).counters = (judgeAllUrgency (clampBalances (adoptStaged s))).counters := by
  simp only [pressureJudged, judgePressure_frame, judgeAllAged_frame]

/-- The state before the timeouts differs in nothing that they rest on from the one that has adopted the set. -/
theorem pressureJudged_judgedBefore (s : State) : JudgedBefore (adoptStaged s) (pressureJudged s) := by
  obtain ⟨hpart, hslots, harrival, hlines, hpointer, hfences, horder, hfaults, hoverflow, hresponses, hactive, hcauses,
    -⟩ := pressureJudged_frame s
  refine ⟨hpart, fun i => by rw [hslots]; rfl, harrival, hlines, hpointer, hfences, horder, hfaults, hoverflow,
    hresponses, hactive, hcauses, ?_⟩
  rw [pressureJudged_counters, (judgeAllUrgency_judged _).counters]
  rfl

/-- The laws of ops, confirmations and lines hold before the timeouts. -/
theorem pressureJudged_laws {s : State} (hm : MergeLaw s) (hl : StoreLaw s) :
    OpLaw (pressureJudged s) ∧ WaitLaw (pressureJudged s) ∧ MergeLaw (pressureJudged s) := by
  obtain ⟨-, ho, hw⟩ := storeLaw_iff.1 hl
  have hjudge : Untouched s (judgePressure (judgeAllAged (judgeAllUrgency (clampBalances (adoptStaged s))))) :=
    .of_frame fun e => by
      rw [judgePressure_waiting, judgeAllAged_waiting]
      simp only [judgeAllUrgency_frame, clampBalances_frame, adoptStaged_frame]
  have hpassing := hjudge.passing ho hw
  have hset : MergeKept s (judgeAllUrgency (clampBalances (adoptStaged s))) := .of_eq
  exact ⟨hpassing.ops, hpassing.waits,
    hm.kept ((hset.trans (judgeAllAged_mergeKept _)).trans (judgePressure_mergeKept _))⟩

theorem dueOps_pressureJudged (s : State) : dueOps (pressureJudged s) (List.finRange 24) =
    opsDue s s.staged.responseTimeout.toNat s.timeBase := by
  obtain ⟨-, -, -, -, -, -, -, -, -, -, hactive, -, htags, htime⟩ := pressureJudged_frame s
  rw [dueOps_all, opsDue_congr htags, hactive, htime]

/-! ## A COMMIT that passes: its timeouts and its end (R136, R164, R183) -/

/-- A tag that holds an op is QUARANTINED where the op is due, and stays where it is not (R136). -/
theorem TimeoutsCounted.tag_outstanding {u v : State} (h : TimeoutsCounted u (List.finRange 24) v) {τ : TagId}
    {op : OutstandingOp} (hop : u.tags[τ] = .outstanding op) : v.tags[τ] =
      if u.active.responseTimeout.toNat ≤ ageOf u.timeBase op.issueTime then .quarantined else .outstanding op := by
  have hdue : (dueOp u τ).isSome = true ↔ u.active.responseTimeout.toNat ≤ ageOf u.timeBase op.issueTime := by
    rw [dueOp, hop]
    dsimp only
    split
    · next hd => exact ⟨fun _ => hd, fun _ => rfl⟩
    · next hd => exact ⟨nofun, fun hd' => absurd hd' hd⟩
  rw [h.tags, hop]
  exact if_congr ((and_iff_right (List.mem_finRange τ)).trans hdue) rfl rfl

/-- A tag that holds no op stays. -/
theorem TimeoutsCounted.tag_other {u v : State} {τs : List TagId} (h : TimeoutsCounted u τs v) {τ : TagId}
    (hop : isOutstanding u.tags[τ] = false) : v.tags[τ] = u.tags[τ] := by
  rw [h.tags, if_neg]
  rw [dueOp]
  cases ht : u.tags[τ] with
  | outstanding op => rw [ht] at hop; cases hop
  | free | quarantined => exact fun hdue => Bool.false_ne_true hdue.2

theorem commitJudged_counted (s : State) : TimeoutsCounted (pressureJudged s) (List.finRange 24) (commitJudged s) :=
  judgeAllTimeouts_counted (pressureJudged s)

/-- The flags stand as R110 gives against the new set: no timeout reaches a queue or an age. -/
theorem commitJudged_urgent (s : State) (k : ClassId) : (commitJudged s).urgent[k] = urgentNow (commitJudged s) k := by
  have hflag : (commitJudged s).urgent[k] = urgentNow (clampBalances (adoptStaged s)) k := by
    have hurgent : (commitJudged s).urgent = (judgeAllUrgency (clampBalances (adoptStaged s))).urgent := by
      simp [commitJudged]
    rw [hurgent, (judgeAllUrgency_judged _).urgent, if_pos (List.mem_finRange k)]
  have hages (i : SlotId) : (commitJudged s).slots[i].age = s.slots[i].age := by
    rw [commitJudged, judgeAllTimeouts_agesStay]
    simp only [judgePressure_frame, judgeAllAged_frame, judgeAllUrgency_frame, clampBalances_frame, adoptStaged_frame]
  have hqueues : (commitJudged s).queues = s.queues := by simp [commitJudged]
  rw [hflag, Bool.eq_iff_iff, urgentNow_iff, urgentNow_iff, commitJudged_active, hqueues]
  simp only [hages]
  rfl

theorem commitStaged_urgent (s : State) (k : ClassId) : (commitStaged s).urgent[k] = urgentNow (commitStaged s) k := by
  have hsame : urgentNow (commitStaged s) k = urgentNow (commitJudged s) k :=
    urgentNow_congr (by simp [commitStaged_eq]) (by simp [commitStaged_eq]) (by simp [commitStaged_eq]) k
  rw [hsame, ← commitJudged_urgent]
  simp only [commitStaged_eq, conclude_frame]

theorem commitJudged_countsJudged (s : State) :
    CountsJudged s (commitJudged s) (opsDue s s.staged.responseTimeout.toNat s.timeBase).length := by
  have hjudged := judgeAllUrgency_judged (clampBalances (adoptStaged s))
  have hurgent : (commitJudged s).urgent = (judgeAllUrgency (clampBalances (adoptStaged s))).urgent := by
    simp [commitJudged]
  have hcount := (commitJudged_counted s).counters
  rw [dueOps_pressureJudged, pressureJudged_counters] at hcount
  have hclass : (commitJudged s).counters.perClass =
      (judgeAllUrgency (clampBalances (adoptStaged s))).counters.perClass := by rw [hcount]
  refine ⟨fun k => ?_, ?_⟩
  · rw [hclass, hjudged.perClass, hurgent]
    rfl
  · rw [hclass, hcount, hjudged.counters]
    rfl

/-- An entry that takes reasons at the end and is at or beyond the new limit holds AGED (R93). -/
theorem commitJudged_aged {s : State} {e : EntryId} (live : entryLive (commitJudged s).entries[e] = true)
    (age : s.staged.holdLimit.toNat ≤ ageOf s.timeBase (commitJudged s).entries[e].firstMerge) :
    Reason.aged ∈ (commitJudged s).entries[e].reasons := by
  have hafter := (judgePressure_entriesStep (judgeAllAged (judgeAllUrgency (clampBalances (adoptStaged s))))).trans
    (judgeAllTimeouts_entriesStep _)
  obtain ⟨hlive, hfirst, hkeeps⟩ := (hafter.entry e).live live
  have hentries : (judgeAllAged (judgeAllUrgency (clampBalances (adoptStaged s)))).entries =
      agedEntries s.staged.holdLimit.toNat s.timeBase s.entries := by
    rw [judgeAllAged_eq]
    simp [adoptStaged]
  refine hkeeps _ ?_
  have hage := hfirst ▸ age
  rw [hentries] at hlive hage ⊢
  exact mem_agedEntries hlive hage

/-- The balances are those clamped to the new ceilings, where no restart ends (R122). -/
theorem commitStaged_balances {s : State} (h : s.part ≠ .restarting) (k : ClassId) :
    (commitStaged s).balances[k] = min s.balances[k] (ceiling s.staged k) := by
  have hpart : (commitJudged s).part ≠ .restarting := by simpa [commitJudged] using h
  have hbalances : (commitJudged s).balances = (pressureJudged s).balances := by
    simp only [commitJudged_eq, judgeAllTimeouts_frame]
  rw [commitStaged_eq, conclude_balances hpart, hbalances, pressureJudged_balances]

/-- The empty conditions of a part that is not RESTARTING leave the round-robin pointer. -/
theorem conclude_pointer {s u : State} (h : u.part ≠ .restarting) : (conclude s u).pointer = u.pointer := by
  show (judgeEmpty (publish s u)).pointer = _
  unfold judgeEmpty
  split
  · split <;> rfl
  · next hp => exact absurd hp h
  · rfl
  · rfl

/-- Outside RESTARTING the part state does not follow from the active set. -/
theorem PartFollows.of_adoptStaged {s t : State} {balances : Vector Int 6} (hp : s.part ≠ .restarting)
    (h : PartFollows (adoptStaged s) t balances) : PartFollows s t balances := by
  have hpart : (adoptStaged s).part = s.part := rfl
  unfold PartFollows at h ⊢
  rw [hpart] at h
  cases hs : s.part with
  | restarting => exact absurd hs hp
  | running | draining | quiescent =>
    rw [hs] at h
    exact h

/-- What the timeouts do is the same whether the event is taken to begin before the set is adopted or after. -/
theorem TimeoutsTaken.of_adoptStaged {s t : State} {ops : List OutstandingOp} {now : Time} {slots : Vector Slot 48}
    {entries : Vector MergeEntry 16} {balances : Vector Int 6} (hp : s.part ≠ .restarting)
    (h : TimeoutsTaken ops now slots entries balances (adoptStaged s) t) :
    TimeoutsTaken ops now slots entries balances s t := by
  obtain ⟨hslots, hentries, hrefs, hlines, harrival, hrecords, hfences, hresponses, hcounter, hraised, hstray,
    hpart⟩ := h
  exact ⟨hslots, hentries, hrefs, hlines, harrival, hrecords, hfences, hresponses, hcounter, hraised, hstray,
    PartFollows.of_adoptStaged hp hpart⟩

theorem commitStaged_timeoutsTaken {s : State} (hp : s.part ≠ .restarting) (hm : MergeLaw s) (hl : StoreLaw s) :
    TimeoutsTaken (opsDue s s.staged.responseTimeout.toNat s.timeBase) s.timeBase s.slots
      (pressured s.staged.mergeReserve.toNat s.timeBase
        (agedEntries s.staged.holdLimit.toNat s.timeBase s.entries)) (commitStaged s).balances s (commitStaged s) := by
  obtain ⟨ho, hw, hm'⟩ := pressureJudged_laws hm hl
  obtain ⟨htimed, -⟩ := foldl_judgeTimeout_timedOut ho hw hm' (List.nodup_finRange 24)
  have hreach : TimeoutsReach (pressureJudged s) (commitJudged s) := by
    rw [commitJudged_eq]
    exact ⟨by simp, by simp, by simp, by simp, by simp⟩
  have htaken := timeoutsTaken_conclude (pressureJudged_judgedBefore s) htimed (commitJudged_counted s) hreach
  obtain ⟨-, hslots, -, -, -, -, -, -, -, -, -, -, -, htime⟩ := pressureJudged_frame s
  have hbalances : (pressureJudged s).balances = (commitStaged s).balances :=
    vector_ext fun k => by rw [pressureJudged_balances, commitStaged_balances hp]
  rw [dueOps_pressureJudged, hslots, pressureJudged_entries, htime, hbalances] at htaken
  exact TimeoutsTaken.of_adoptStaged hp htaken

/-- A COMMIT of a set that passes: the answer is the new epoch, and the rest is its judgements' (R183). -/
theorem commitPart_adopts {s : State} (hp : s.part ≠ .restarting) (h : ∀ x, ¬ ItemFails s.staged x) :
    commitPart s = answerMgmt (commitStaged s) .done ((s.epoch + 1).setWidth 32) := by
  rw [commitPart_taken hp, validateAndCommit, lowestFailure_of_valid h, ← BitVec.ofNat_toNat]

/-- An answer reaches nothing that the urgency flags and the timeouts rest on. -/
theorem urgentNow_answerMgmt (s : State) (st : MgmtStatus) (v : Word) (k : ClassId) :
    urgentNow (answerMgmt s st v) k = urgentNow s k := rfl

theorem answerMgmt_timeoutsTaken {s t : State} {ops : List OutstandingOp} {now : Time} {slots : Vector Slot 48}
    {entries : Vector MergeEntry 16} {balances : Vector Int 6} (h : TimeoutsTaken ops now slots entries balances s t)
    (st : MgmtStatus) (v : Word) : TimeoutsTaken ops now slots entries balances s (answerMgmt t st v) := h

/-- The blocks that a COMMIT reaches (R183). -/
theorem commitStaged_reaches {s : State} (hp : s.part ≠ .restarting) : commitStaged s = { s with
    active := s.staged, epoch := s.epoch + 1, balances := (commitStaged s).balances
    urgent := (commitStaged s).urgent, entries := (commitStaged s).entries, lines := (commitStaged s).lines
    tags := (commitStaged s).tags, slots := (commitStaged s).slots, arrival := (commitStaged s).arrival
    fences := (commitStaged s).fences, faults := (commitStaged s).faults, overflow := (commitStaged s).overflow
    causes := (commitStaged s).causes, counters := (commitStaged s).counters
    responses := (commitStaged s).responses, part := (commitStaged s).part } := by
  have hpart : (commitJudged s).part ≠ .restarting := by simpa [commitJudged] using hp
  have hpointer : (commitStaged s).pointer = s.pointer := by
    rw [commitStaged_eq, conclude_pointer hpart]
    simp [commitJudged]
  have hactive : (commitStaged s).active = s.staged := by simp [commitStaged, adoptStaged]
  have hepoch : (commitStaged s).epoch = s.epoch + 1 := by simp [commitStaged, adoptStaged]
  exact state_ext (by simp [hpointer, hactive, hepoch])

/-- Settles O12: the set is adopted, each judgement is read off its own pass, and the later passes leave what it set. -/
theorem commitAdopts : Obligations.CommitAdopts := by
  intro s hr hp hvalid
  have hexec : exec .commit s = .next (commitPart s) := exec_released hr
  have hframe := commitStaged_reaches hp
  obtain ⟨-, -, -, -, -, -, -, -, -, -, hactive, -, htags, htime⟩ := pressureJudged_frame s
  have hcounted := commitJudged_counted s
  rw [commitPart_adopts hp hvalid] at hexec
  refine ⟨_, hexec, ?_⟩
  simp only [answerMgmt_frame, urgentNow_answerMgmt]
  refine ⟨?_, ?_, ?_, rfl, fun k => ⟨commitStaged_balances hp k, commitStaged_urgent s k⟩, ?_, fun e hlive hage => ?_,
    fun τ op hop => ?_, fun τ hop => ?_,
    fun hm hl => answerMgmt_timeoutsTaken (commitStaged_timeoutsTaken hp hm hl) _ _, commitStaged_capturesStay s, ?_⟩
  · rw [hframe]
  · rw [hframe]
  · rw [hframe]
  · have hjudged := commitJudged_countsJudged s
    unfold CountsJudged at hjudged ⊢
    simp only [answerMgmt_frame, commitStaged_eq, conclude_frame]
    exact hjudged
  · simp only [commitStaged_eq, conclude_frame] at hlive hage ⊢
    exact commitJudged_aged hlive hage
  · simp only [commitStaged_eq, conclude_frame]
    rw [hcounted.tag_outstanding (by rw [htags]; exact hop), hactive, htime]
  · simp only [commitStaged_eq, conclude_frame]
    rw [hcounted.tag_other (by rw [htags]; exact hop), htags]
  · rw [answerMgmt, hframe]
    rfl

/-! ## DISCARD_STAGED and CLEAR_COUNTERS (R186, R192) -/

theorem classCounterItem_reset (k : ClassId) (j : Nat) : classCounterItem Counters.reset.perClass[k] j = 0 := by
  have hclass : Counters.reset.perClass[k] =
      { accepted := 0, bytesCharged := 0, urgentEpisodes := 0, promotions := 0, deferrals := 0 } := by
    simp [Counters.reset]
  rw [hclass]
  unfold classCounterItem
  split <;> rfl

theorem globalCounterItem_reset (j : Nat) : globalCounterItem Counters.reset j = 0 := by
  unfold globalCounterItem
  split <;> rfl

/-- Settles O10: each is one update of the state. -/
theorem discardStagedAndClearCounters : Obligations.DiscardStagedAndClearCounters := fun _ hr =>
  ⟨exec_released hr, _, exec_released hr, rfl, fun k j => classCounterItem_reset k j,
    fun j => globalCounterItem_reset j⟩

/-! ## TAKE_FAULT and the fault readout (R158, R190, R194) -/

theorem getLsbD_ofNat_packBits (f : Nat → Bool) {n : Nat} (hn : n < 32) :
    (BitVec.ofNat 32 (packBits 32 f)).getLsbD n = f n := by
  rw [BitVec.getLsbD_ofNat, testBit_packBits, decide_eq_true hn, Bool.true_and, Bool.true_and]

theorem readoutValue_some (r : FaultRecord) (overflow : Nat) (x : ReadoutField) :
    readoutValue { record := some r, overflow } x = BitVec.ofNat 32 (recordField r overflow x) := rfl

/-- A record taken is read back from the readout items, field by field (R194). -/
theorem readoutShows_taken (r : FaultRecord) {overflow : Nat} (h : overflow ≤ 65535) :
    ReadoutShows (readoutValue { record := some r, overflow }) r overflow := by
  have hkind : lossCode r.kind < 4 := by cases r.kind <;> decide
  have hwindow : windowCode r.window < 32 := by
    cases r.window with
    | window w => exact Nat.lt_trans w.isLt (by decide)
    | dflt => decide
  have hepoch := r.epoch.isLt
  have hline := r.line.isLt
  have hinfo : (readoutValue { record := some r, overflow } .info).toNat =
      lossCode r.kind + 256 * windowCode r.window + 65536 * r.epoch.toNat := by
    rw [readoutValue_some, BitVec.toNat_ofNat, recordField]
    omega
  refine ⟨?_, ?_, ?_, ?_, fun l => ?_, fun i => ?_, ?_, ?_⟩
  · rw [hinfo]
    show _ = lossCode r.kind
    omega
  · rw [hinfo]
    show _ = windowCode r.window
    omega
  · rw [hinfo]
    omega
  · simp only [readoutValue_some, BitVec.toNat_ofNat, recordField]
    omega
  · simp only [readoutValue_some, recordField]
    split
    · next hl => rw [getLsbD_ofNat_packBits _ hl, dif_pos l.isLt]; rfl
    · next hl =>
      have hlane : 32 + (l.val - 32) = l := by omega
      rw [getLsbD_ofNat_packBits _ (by omega)]
      simp only [hlane, dif_pos l.isLt]
      rfl
  · rw [readoutValue_some, recordField, getLsbD_ofNat_packBits _ i.isLt]
    simp [Fin.val_inj]
  · rw [readoutValue_some, recordField, BitVec.ofNat_toNat, BitVec.setWidth_eq]
  · rw [readoutValue_some, recordField, BitVec.toNat_ofNat]
    omega

theorem takeFault_empty {s : State} (h : s.faults = []) : takeFault s = answerMgmt s .empty 0 := by
  simp only [takeFault, h]

theorem takeFault_oldest {s : State} {r : FaultRecord} {rest : List FaultRecord} (h : s.faults = r :: rest) :
    takeFault s = { s with
      faults := rest, overflow := 0, readout := { record := some r, overflow := s.overflow }
      mgmt := some { status := .done, value := BitVec.ofNat 32 rest.length } } := by
  simp only [takeFault, h]
  rfl

/-- Settles O13: the oldest record is taken, and the readout items show it. -/
theorem takeFaultMovesTheOldest : Obligations.TakeFaultMovesTheOldest := by
  intro s hr
  have hexec : exec .takeFault s = .next (takeFault s) := exec_released hr
  refine ⟨fun h => hexec.trans (congrArg _ (takeFault_empty h)), fun r rest h hov => ?_⟩
  exact ⟨_, hexec.trans (congrArg _ (takeFault_oldest h)), rfl, rfl, readoutShows_taken r hov, rfl,
    fun f x hx => exec_readItem_fault (by exact hr) hx, rfl⟩

/-! ## ACK_ALERT and ALERT (R191, R197 to R199) -/

/-- No bit from 7 on is set in the pending causes. -/
theorem pendingCauses_bit_above (s : State) {n : Nat} (hn : 7 ≤ n) : (pendingCauses s).getLsbD n = false := by
  rw [pendingCauses, BitVec.getLsbD_ofNat, testBit_packBits, decide_eq_false (not_lt.2 hn), Bool.false_and,
    Bool.and_false]

theorem pendingCauses_causeLayout (s : State) :
    CauseLayout (pendingCauses s) s.causes (decide (∀ τ : TagId, s.tags[τ] = .quarantined)) := by
  have hbit {n : Nat} (hn : n < 7) := pendingCauses_bit s hn
  have hexhausted : tagsExhausted s = decide (∀ τ : TagId, s.tags[τ] = .quarantined) := by
    rw [Bool.eq_iff_iff, tagsExhausted_iff, decide_eq_true_iff]
  exact ⟨hbit (by decide), hbit (by decide), hbit (by decide), hbit (by decide), hbit (by decide), hbit (by decide),
    (hbit (by decide)).trans hexhausted, fun _ => pendingCauses_bit_above s⟩

/-- A word that is not zero has a bit that is set. -/
theorem ne_zero_iff_exists_bit {w : Word} : w ≠ 0 ↔ ∃ n, w.getLsbD n = true := by
  have hzero (n : Nat) : (0 : Word).getLsbD n = false := BitVec.getLsbD_zero
  constructor
  · intro h
    by_contra hnone
    exact h (BitVec.eq_of_getLsbD_eq fun n _ =>
      (eq_false_of_ne_true fun hn => hnone ⟨n, hn⟩).trans (hzero n).symm)
  · rintro ⟨n, hn⟩ rfl
    exact Bool.false_ne_true ((hzero n).symm.trans hn)

/-- With RESET released ALERT is asserted while a pending cause is enabled in the active mask (R199). -/
theorem alert_iff {s : State} (hr : s.resetLine = false) :
    alert s = true ↔ ∃ n, (pendingCauses s).getLsbD n = true ∧ s.active.alertMask.getLsbD n = true := by
  rw [alert, hr, Bool.not_false, Bool.true_and, bne_iff_ne, ne_zero_iff_exists_bit]
  simp only [BitVec.getLsbD_and, Bool.and_eq_true]

/-- Settles O14: the causes named are cleared, and the answer is the layout of those that remain. -/
theorem ackAlertClearsWhatItNames : Obligations.AckAlertClearsWhatItNames := by
  intro s v hr
  exact ⟨_, exec_released hr, rfl, rfl, rfl, rfl, rfl, rfl, rfl, _, rfl,
    pendingCauses_causeLayout (setCauses s (ackCauses s.causes v)),
    alert_iff (s := setCauses s (ackCauses s.causes v)) hr⟩

/-! ## STATUS and the oldest live epoch (R175, R185, R193) -/

theorem mem_liveEpochs {s : State} {e : Epoch} : e ∈ liveEpochs s ↔
    (∃ i rest, s.arrival = i :: rest ∧ e = s.slots[i].epoch) ∨
      ∃ k : FenceId, s.fences[k].state ≠ .free ∧ e = s.fences[k].epoch := by
  have hfences : e ∈ ((List.finRange 8).filter (fun k => s.fences[k].state != .free)).map
      (fun k => s.fences[k].epoch) ↔ ∃ k : FenceId, s.fences[k].state ≠ .free ∧ e = s.fences[k].epoch := by
    simp only [List.mem_map, List.mem_filter, List.mem_finRange, true_and, bne_iff_ne, eq_comm (a := e)]
  rw [liveEpochs, List.mem_append, hfences]
  refine or_congr_left ?_
  cases hs : s.arrival with
  | nil => exact ⟨nofun, fun ⟨_, _, h, _⟩ => nomatch h⟩
  | cons i rest =>
    rw [List.mem_singleton]
    refine ⟨fun h => ⟨i, rest, rfl, h⟩, ?_⟩
    rintro ⟨_, _, ⟨⟩, h⟩
    exact h

/-- The greatest of `m` and the keys of a list, which bounds them and is `m` or one of them. -/
theorem foldl_maxKey_spec {α : Type} (key : α → Nat) (l : List α) (m : Nat) :
    (m ≤ l.foldl (fun d x => max d (key x)) m ∧ ∀ x ∈ l, key x ≤ l.foldl (fun d x => max d (key x)) m) ∧
    (l.foldl (fun d x => max d (key x)) m = m ∨ ∃ x ∈ l, l.foldl (fun d x => max d (key x)) m = key x) := by
  induction l generalizing m with
  | nil => simp
  | cons a l ih =>
    obtain ⟨⟨hstart, hbounds⟩, hreached⟩ := ih (max m (key a))
    rw [List.foldl_cons]
    refine ⟨⟨(le_max_left _ _).trans hstart, fun x hx => ?_⟩, ?_⟩
    · rcases List.mem_cons.1 hx with rfl | hx
      · exact (le_max_right _ _).trans hstart
      · exact hbounds x hx
    · rcases hreached with hmax | ⟨x, hx, hkey⟩
      · rcases max_choice m (key a) with h | h
        · exact .inl (hmax.trans h)
        · exact .inr ⟨a, List.mem_cons_self, hmax.trans h⟩
      · exact .inr ⟨x, List.mem_cons_of_mem _ hx, hkey⟩

/-- How far the oldest live epoch lies behind the active one. -/
def oldestBehind (s : State) : Nat := (liveEpochs s).foldl (fun d e => max d (epochsBehind s e)) 0

theorem oldestLiveEpoch_eq (s : State) : oldestLiveEpoch s = s.epoch - BitVec.ofNat 8 (oldestBehind s) := rfl

/-- Either there is no candidate behind the active epoch, or the farthest is one (R185). -/
theorem oldestBehind_reached (s : State) :
    oldestBehind s = 0 ∨ ∃ e ∈ liveEpochs s, oldestBehind s = epochsBehind s e :=
  (foldl_maxKey_spec (epochsBehind s) (liveEpochs s) 0).2

theorem oldestBehind_lt (s : State) : oldestBehind s < 256 := by
  rcases oldestBehind_reached s with h | ⟨e, -, h⟩ <;> rw [h]
  · decide
  · exact (s.epoch - e).isLt

theorem epochsBehind_oldestLiveEpoch (s : State) : epochsBehind s (oldestLiveEpoch s) = oldestBehind s := by
  have hself : s.epoch - (s.epoch - BitVec.ofNat 8 (oldestBehind s)) = BitVec.ofNat 8 (oldestBehind s) := by
    rw [sub_sub_cancel]
  rw [epochsBehind, oldestLiveEpoch_eq, hself, BitVec.toNat_ofNat, Nat.mod_eq_of_lt (oldestBehind_lt s)]

theorem epochsBehind_le {s : State} {e : Epoch} (h : e ∈ liveEpochs s) :
    epochsBehind s e ≤ epochsBehind s (oldestLiveEpoch s) := by
  rw [epochsBehind_oldestLiveEpoch]
  exact (foldl_maxKey_spec (epochsBehind s) (liveEpochs s) 0).1.2 e h

theorem oldestLiveEpoch_mem (s : State) : oldestLiveEpoch s ∈ liveEpochs s ∨ oldestLiveEpoch s = s.epoch := by
  rcases oldestBehind_reached s with h | ⟨e, he, h⟩
  · right
    rw [oldestLiveEpoch_eq, h]
    exact sub_zero _
  · left
    have hself : oldestLiveEpoch s = e := by
      rw [oldestLiveEpoch_eq, h, epochsBehind, BitVec.ofNat_toNat, BitVec.setWidth_eq, sub_sub_cancel]
    rwa [hself]

/-- Status word 0 as a number, where the list of faults is within its bounds (R193). -/
theorem toNat_statusWord0 {s : State} (h : s.faults.length ≤ 8) : (statusWord0 s).toNat =
    partCode s.part + (if s.shortFrame then 4 else 0) + 16 * s.faults.length + 256 * s.epoch.toNat +
      65536 * (oldestLiveEpoch s).toNat := by
  have hpart : partCode s.part < 4 := by cases s.part <;> decide
  have hepoch := s.epoch.isLt
  have holdest := (oldestLiveEpoch s).isLt
  rw [statusWord0, BitVec.toNat_ofNat]
  split <;> omega

theorem countWhere_le {n : Nat} (p : Fin n → Bool) : countWhere p ≤ n :=
  List.countP_le_length.trans_eq List.length_finRange

theorem toNat_statusWord1 (s : State) : (statusWord1 s).toNat =
    freeSlots s + 256 * freeEntries s + 65536 * freeTags s + 16777216 * quarantinedTags s := by
  have hslots : freeSlots s ≤ 48 := countWhere_le _
  have hentries : freeEntries s ≤ 16 := countWhere_le _
  have htags : freeTags s ≤ 24 := countWhere_le _
  have hquarantined : quarantinedTags s ≤ 24 := countWhere_le _
  rw [statusWord1, BitVec.toNat_ofNat]
  omega

theorem statusCommand_unknown {n : BitVec 16} (h : 2 ≤ n.toNat) (s : State) :
    statusCommand s n = answerMgmt s .badItem 0 := by
  rw [statusCommand, if_neg (by omega), if_neg (by omega)]

/-- Settles O15: both words field by field, and the candidate that lies farthest behind. -/
theorem statusReportsBothWords : Obligations.StatusReportsBothWords := by
  rintro s hr ⟨hfaults, -, -⟩
  have hword := toNat_statusWord0 hfaults
  have hpart : partCode s.part < 4 := by cases s.part <;> decide
  have hepoch := s.epoch.isLt
  have holdest := (oldestLiveEpoch s).isLt
  refine ⟨⟨statusWord0 s, exec_released hr, ?_, ?_, ?_, ?_, ?_, ?_⟩,
    ⟨statusWord1 s, exec_released hr, toNat_statusWord1 s⟩,
    (exec_released hr).trans (exec_released hr).symm, (exec_released hr).trans (exec_released hr).symm,
    fun n hn => (exec_released hr).trans (congrArg _ (statusCommand_unknown hn s)), ?_, fun e he => ?_⟩
  · show _ = partCode s.part
    rw [hword]
    split <;> omega
  · rw [BitVec.getLsbD, Nat.testBit_eq_decide_div_mod_eq, hword]
    cases s.shortFrame <;>
      simp only [Bool.false_eq_true, if_true, if_false, decide_eq_true_eq, decide_eq_false_iff_not] <;> omega
  · rw [hword]
    split <;> omega
  · apply BitVec.eq_of_toNat_eq
    rw [BitVec.extractLsb'_toNat, hword, Nat.shiftRight_eq_div_pow]
    split <;> omega
  · apply BitVec.eq_of_toNat_eq
    rw [BitVec.extractLsb'_toNat, hword, Nat.shiftRight_eq_div_pow]
    split <;> omega
  · rw [hword]
    split <;> omega
  · exact (oldestLiveEpoch_mem s).imp_left mem_liveEpochs.1
  · exact epochsBehind_le (mem_liveEpochs.2 he)

/-! ## RESUME and DRAIN by the part state (R162, R163, R166) -/

/-- RESUME where it is taken: the part state and the answer (R166). -/
theorem resumePart_taken {s : State} (h : s.part ≠ .restarting) :
    resumePart s = { s with part := .running, mgmt := some { status := .done, value := 0 } } := by
  cases hp : s.part with
  | running =>
    have hsame : setPart s .running = s := by rw [← hp]; rfl
    have hresume : resumePart s = answerPart (setPart s .running) := by simp only [resumePart, hp, hsame]
    rw [hresume]
    rfl
  | draining | quiescent =>
    simp only [resumePart, hp]
    rfl
  | restarting => exact absurd hp h

theorem resumePart_busy {s : State} (h : s.part = .restarting) : resumePart s = answerBusy s := by
  simp only [resumePart, h]

/-- Settles O47: RESUME by the part state. -/
theorem resumeCommand : Obligations.ResumeCommand := fun _ hr =>
  ⟨fun h => (exec_released hr).trans (congrArg _ (resumePart_taken h)),
    fun h => (exec_released hr).trans (congrArg _ (resumePart_busy h))⟩

/-- The entries once DRAIN_CMD has been added to each that takes reasons (R163). -/
def demandedEntries (s : State) : Vector MergeEntry 16 :=
  tabulate fun e => withReason s.entries[e] .drainCmd s.timeBase

theorem demandAll_entries (s : State) : demandAll s = setEntries s (demandedEntries s) := demandAll_eq s

/-- A reason makes no entry FREE and no FREE entry live. -/
theorem withReason_state_free (m : MergeEntry) (r : Reason) (now : Time) :
    (withReason m r now).state = .free ↔ m.state = .free := by
  cases h : entryLive m with
  | false => rw [withReason_other h]
  | true =>
    rw [withReason_live h]
    have hlive := entryLive_iff.1 h
    exact ⟨nofun, fun hfree => by rw [hfree] at hlive; exact hlive.elim nofun nofun⟩

/-- DRAIN_CMD leaves the empty conditions as they stand (R164). -/
theorem demandAll_emptyConditions (s : State) (p : PartState) :
    emptyConditions (demandAll (setPart s p)) = emptyConditions s := by
  rw [Bool.eq_iff_iff, emptyConditions_iff, emptyConditions_iff, demandAll_entries]
  have hentries : (∀ e : EntryId, (demandedEntries (setPart s p))[e].state = .free) ↔
      ∀ e : EntryId, s.entries[e].state = .free := by
    refine forall_congr' fun e => ?_
    rw [demandedEntries, get_tabulate]
    exact withReason_state_free ..
  exact and_congr_right fun _ => and_congr_right fun _ => and_congr_left fun _ => hentries

/-- DRAIN in RUNNING: the entries, then the part state by the empty conditions, with its code as the answer (R162 to
R164). -/
theorem drainPart_running {s : State} (h : s.part = .running) : drainPart s =
    if emptyConditions s then { s with
      part := .quiescent, entries := demandedEntries s, causes := { s.causes with drained := true }
      mgmt := some { status := .done, value := 2 } }
    else { s with
      part := .draining, entries := demandedEntries s, mgmt := some { status := .done, value := 1 } } := by
  have hpart : (demandAll (setPart s .draining)).part = .draining := by simp
  have hdrain : drainPart s = answerPart (judgeEmpty (demandAll (setPart s .draining))) := by simp only [drainPart, h]
  rw [hdrain, judgeEmpty_draining hpart, demandAll_emptyConditions, demandAll_entries]
  split <;> rfl

theorem drainPart_repeated {s : State} (h : s.part = .draining ∨ s.part = .quiescent) :
    drainPart s = answerPart s := by
  rcases h with h | h <;> simp only [drainPart, h]

theorem answerPart_of_part {s : State} {p : PartState} (h : s.part = p) :
    answerPart s = answerMgmt s .done (BitVec.ofNat 32 (partCode p)) := by
  rw [answerPart, h]

theorem drainPart_busy {s : State} (h : s.part = .restarting) : drainPart s = answerBusy s := by
  simp only [drainPart, h]

/-- Settles O46: DRAIN by the part state, and in RUNNING by the empty conditions. -/
theorem drainCommand : Obligations.DrainCommand := by
  intro s hr
  have hexec : exec .drain s = .next (drainPart s) := exec_released hr
  refine ⟨fun hp => ⟨_, hexec, fun e => ?_, fun hheld => ?_, fun hempty => ?_, ?_⟩, fun hp => ?_, fun hp => ?_,
    fun hp => ?_⟩
  · have hentry : (drainPart s).entries[e] = withReason s.entries[e] .drainCmd s.timeBase := by
      have hentries : (drainPart s).entries = demandedEntries s := by
        rw [drainPart_running hp]
        split <;> rfl
      rw [hentries, demandedEntries, get_tabulate]
    obtain ⟨htakes, -⟩ := withReason_takesReason s.entries[e] .drainCmd s.timeBase
    rw [hentry]
    exact ⟨fun hdead => withReason_other hdead _ _, fun hlive => htakes (entryLive_iff.1 hlive)⟩
  · rw [drainPart_running hp, hheld]
    exact ⟨rfl, rfl, rfl⟩
  · rw [drainPart_running hp, hempty]
    exact ⟨rfl, rfl, rfl⟩
  · rw [drainPart_running hp]
    split <;> rfl
  · exact hexec.trans (congrArg _ ((drainPart_repeated (.inl hp)).trans (answerPart_of_part hp)))
  · exact hexec.trans (congrArg _ ((drainPart_repeated (.inr hp)).trans (answerPart_of_part hp)))
  · rw [hexec, drainPart_busy hp]
    rfl

end Sys2Proof.Machine

/-! PROOFS. The step: the command at the front of the queue, or idling. -/

namespace Sys2Proof.Machine

/-- A queue with a command at its front: the command runs on the state that holds the rest. -/
theorem step_of_pending_cons {s : State} {c : Instr} {rest : List Instr} (h : s.pending = c :: rest) :
    step s = exec c (setPending s rest) := by
  simp only [step, h]

/-- An empty queue: the block idles (the model's choice, log 1). -/
theorem step_of_pending_nil {s : State} (h : s.pending = []) : step s = .next s := by
  simp only [step, h]

/-- Settles O1: one case per form of the queue. -/
theorem stepTakesTheFrontCommand : Obligations.StepTakesTheFrontCommand :=
  ⟨fun _ _ _ hfront => step_of_pending_cons hfront, fun _ hempty => step_of_pending_nil hempty⟩

end Sys2Proof.Machine
